-- ==== Sys2Proof/Word.lean ====
section
/-! DEFINITION. The plainest types of the model: bytes and samples, the numbers 1-4 of fields, screens, lines, lanes,
stations and windows (00_scope.md section 4), and a store of four like things. -/

namespace Sys2Proof

/-- One byte of the control link or of a field line. -/
abbrev Byte := BitVec 8

/-- One 16-bit audio sample (00_scope.md sections 4 and 6). -/
abbrev Sample := BitVec 16

/-- The numbers 1-4 of the things the part has four of (00_scope.md section 4). -/
inductive Nr where
  | one | two | three | four
  deriving DecidableEq, Repr

/-- The number as the manual writes it. -/
def Nr.toNat : Nr → Nat
  | .one => 1
  | .two => 2
  | .three => 3
  | .four => 4

/-- A number named by a request; none outside 1-4. -/
def Nr.ofNat? : Nat → Option Nr
  | 1 => some .one
  | 2 => some .two
  | 3 => some .three
  | 4 => some .four
  | _ => none

/-- All four, in ascending order. -/
def Nr.all : List Nr := [.one, .two, .three, .four]

/-- Four like things, one for each number. -/
structure Four (α : Type) where
  one : α
  two : α
  three : α
  four : α
  deriving DecidableEq, Repr

namespace Four

/-- The thing of number `n`. -/
def get {α : Type} (v : Four α) : Nr → α
  | .one => v.one
  | .two => v.two
  | .three => v.three
  | .four => v.four

/-- Replace the thing of number `n`. -/
def set {α : Type} (v : Four α) (n : Nr) (x : α) : Four α :=
  match n with
  | .one => { v with one := x }
  | .two => { v with two := x }
  | .three => { v with three := x }
  | .four => { v with four := x }

/-- The same thing four times. -/
def all {α : Type} (x : α) : Four α := ⟨x, x, x, x⟩

/-- One thing made for each number. -/
def tabulate {α : Type} (f : Nr → α) : Four α := ⟨f .one, f .two, f .three, f .four⟩

/-- The same change made to each. -/
def map {α β : Type} (f : α → β) (v : Four α) : Four β := ⟨f v.one, f v.two, f v.three, f v.four⟩

end Four

/-- Whole-number quotient rounded up. -/
def ceilDiv (a b : Nat) : Nat := (a + b - 1) / b

end Sys2Proof
end

