-- ==== Sys2Proof/Syntax.lean ====
section
/-! DEFINITION. The commands of the part: one constructor of `Instr` for each row of spec/opcode_table.json, with the
operands its rule names. Numbers in requests are plain naturals, so that a value outside its range can be sent and refused;
operands of events name things that exist. -/

namespace Sys2Proof

/-- How a request's body reads before its values are looked at (R196 "checks the body length, then the values").
The manual gives no byte layout for most bodies, so the outcome of reading the bytes is an operand (log 1). -/
inductive Form where
  /-- the body has the length its kind asks for, and every coded byte is one of its codes -/
  | fits
  /-- the body length is wrong for the kind -/
  | wrongLength
  /-- the length is right, and a coded byte (an operation, a selector, an on/off byte, a name) is none of its codes -/
  | unknownCode
  deriving DecidableEq, Repr

/-- What every request carries besides its values: the tag chosen by the booth computer (R194), and how its body reads. -/
structure Req where
  tag : Byte
  form : Form
  deriving DecidableEq, Repr

/-! ### Screen timelines and booth output lines -/

/-- The six cue-driven lines of a screen (02 introduction). -/
inductive BoothLine where
  | shutter | lamp | lights | mask | aux1 | aux2
  deriving DecidableEq, Repr

/-- A line as a request or a cue names it; the HOLD line can be named, and is refused (R5, R35, R36). -/
inductive LineName where
  | cueDriven (line : BoothLine)
  | hold
  deriving DecidableEq, Repr

/-- The level of a booth output line (section 2.1). -/
inductive Level where
  | asserted | released
  deriving DecidableEq, Repr

/-- The active sense of a line: the pin level that stands for ASSERTED (R29). -/
inductive Sense where
  | high | low
  deriving DecidableEq, Repr

/-- One thing for each of the six cue-driven lines. -/
structure Six (α : Type) where
  shutter : α
  lamp : α
  lights : α
  mask : α
  aux1 : α
  aux2 : α
  deriving DecidableEq, Repr

namespace Six

/-- The thing of a line. -/
def get {α : Type} (v : Six α) : BoothLine → α
  | .shutter => v.shutter
  | .lamp => v.lamp
  | .lights => v.lights
  | .mask => v.mask
  | .aux1 => v.aux1
  | .aux2 => v.aux2

/-- Replace the thing of a line. -/
def set {α : Type} (v : Six α) (l : BoothLine) (x : α) : Six α :=
  match l with
  | .shutter => { v with shutter := x }
  | .lamp => { v with lamp := x }
  | .lights => { v with lights := x }
  | .mask => { v with mask := x }
  | .aux1 => { v with aux1 := x }
  | .aux2 => { v with aux2 := x }

/-- The same change made to each. -/
def map {α β : Type} (f : α → β) (v : Six α) : Six β :=
  ⟨f v.shutter, f v.lamp, f v.lights, f v.mask, f v.aux1, f v.aux2⟩

/-- Two sixes put together line by line. -/
def zipWith {α β γ : Type} (f : α → β → γ) (v : Six α) (w : Six β) : Six γ :=
  ⟨f v.shutter w.shutter, f v.lamp w.lamp, f v.lights w.lights, f v.mask w.mask, f v.aux1 w.aux1, f v.aux2 w.aux2⟩

end Six

/-- The operation of an OUTPUT cue, times in ms (R5, R18). -/
inductive OutputOp where
  | assert
  | release
  | pulse (delay width : Nat)
  | blink (halfPeriod : Nat)
  deriving DecidableEq, Repr

/-- The action of a cue with its parameters (R5). -/
inductive CueAction where
  | output (line : LineName) (op : OutputOp)
  | mark (code : Nat)
  | intermissionBegin (chime : Nat)
  | intermissionEnd
  | holdPoint
  | announce (chime priority : Nat)
  | orderOpen
  | orderCutoff
  | finish
  deriving DecidableEq, Repr

/-- A cue as CUE_LOAD and CUE_INSERT carry it (R5). -/
structure CueSpec where
  number : Nat
  position : Nat
  action : CueAction
  deriving DecidableEq, Repr

/-- The settings of SCREEN_SET (R3): frames per second, ms, inbound cars, s, chime pattern, s. -/
structure ScreenSettings where
  frameRate : Nat
  stallTime : Nat
  holdEnable : Bool
  holdThreshold : Nat
  maxHold : Nat
  holdChime : Nat
  orderLead : Nat
  deriving DecidableEq, Repr

/-! ### Audio and announcements -/

/-- One stereo sample frame. -/
structure Frame where
  left : Sample
  right : Sample
  deriving DecidableEq, Repr

/-- The five audio inputs (section 3.1). -/
inductive Input where
  | prog (n : Nr)
  | ann
  deriving DecidableEq, Repr

/-- The settings of AUDIO_SET (R45): route 1-4, T, delay in ms, Ld, Rd, Ru, field audio, Ga. -/
structure AudioSettings where
  route : Nat
  trim : Nat
  delay : Nat
  duckDepth : Nat
  rampDown : Nat
  rampUp : Nat
  fieldAudio : Bool
  annGain : Nat
  deriving DecidableEq, Repr

/-- The kind of an announcement (R63). -/
inductive AnnKind where
  | chime | live
  deriving DecidableEq, Repr

/-- One note of a chime pattern: note index 0-15 and duration in ms (R72). -/
structure Note where
  index : Nat
  duration : Nat
  deriving DecidableEq, Repr

/-! ### Field lines and posts -/

/-- The settings of LINE_SET (R99). -/
structure LineSettings where
  velocity : Nat
  threshold : Nat
  autoSurvey : Bool
  deriving DecidableEq, Repr

/-- A bay side as a down message carries it; BOTH for a CHIME only (R115). -/
inductive DownSide where
  | left | right | both
  deriving DecidableEq, Repr

/-- The message of POST_SEND (R122). A DISPLAY carries its text length beside its text; `other` is a kind that is neither. -/
inductive BoothMessage where
  | display (side : DownSide) (seconds textLength : Nat) (text : List Byte)
  | chime (side : DownSide) (pattern : Nat)
  | other
  deriving DecidableEq, Repr

/-! ### Gate, occupancy, menu and orders -/

/-- The direction setting of a lane (R137). -/
inductive LaneDirection where
  | entry | exit | both
  deriving DecidableEq, Repr

/-- The settings of LANE_SET (R137): direction, samples, s, s. -/
structure LaneSettings where
  direction : LaneDirection
  filterCount : Nat
  blockedTime : Nat
  expiry : Nat
  deriving DecidableEq, Repr

/-- A loop of a lane (chapter 8). -/
inductive LoopName where
  | a | b
  deriving DecidableEq, Repr

/-- The vehicle class of an admission (R145). -/
inductive VehicleClass where
  | car | tall
  deriving DecidableEq, Repr

/-- The settings of FIELD_SET (R160); a limit of 0 stands for none. -/
structure FieldSettings where
  limit : Nat
  seatTimeout : Nat
  reopenMargin : Nat
  deriving DecidableEq, Repr

/-- The availability of a menu item (R164). -/
inductive Availability where
  | available | soldOut | hidden
  deriving DecidableEq, Repr

/-- A menu item (R164). -/
structure MenuItem where
  code : Nat
  name : List Byte
  price : Nat
  station : Nat
  prep : Nat
  availability : Availability
  deriving DecidableEq, Repr

/-- The booth's reason in ORDER_CANCEL (R186). -/
inductive BoothReason where
  | itemOut | kitchenClosed | booth
  deriving DecidableEq, Repr

/-- The selector of REPORT_MASK (R199). -/
inductive Selector where
  | sources | rise | fall
  deriving DecidableEq, Repr

/-- The commands of the part, in the order of spec/opcode_table.json. -/
inductive Instr where
  | powerOnReset (baud1 baud0 : Bool)
  | restartAll (r : Req)
  | restartState (r : Req)
  | restartTakesEffect
  | frameReceived (byte : Byte)
  | gapTimerExpiry
  | unknownRequest (tag : Byte) (kind : Byte)
  | frameSent
  | identify (r : Req)
  | linkStatus (r : Req)
  | reportMaskWrite (r : Req) (selector : Selector) (bits : BitVec 40)
  | reportMaskSet (r : Req) (selector : Selector) (bits : BitVec 40)
  | reportMaskClear (r : Req) (selector : Selector) (bits : BitVec 40)
  | conditionRead (r : Req)
  | listRead (r : Req) (collection param start count : Nat)
  | screenSet (r : Req) (screen : Nat) (settings : ScreenSettings)
  | cueLoad (r : Req) (screen count : Nat) (cues : List CueSpec)
  | cueInsert (r : Req) (screen : Nat) (cue : CueSpec)
  | cueDelete (r : Req) (screen number : Nat)
  | cueClear (r : Req) (screen : Nat)
  | showArm (r : Req) (screen : Nat)
  | showGo (r : Req) (screen : Nat)
  | showStop (r : Req) (screen : Nat)
  | holdRelease (r : Req) (screen : Nat)
  | showStatus (r : Req) (screen : Nat)
  | frameCounted (n : Nr) (samples : List Bool)
  | stallTimerExpiry (n : Nr)
  | maximumHoldExpiry (n : Nr)
  | outputSet (r : Req) (screen : Nat) (senses : Six Sense)
  | outputForce (r : Req) (screen : Nat) (line : LineName) (level : Level)
  | outputUnforce (r : Req) (screen : Nat) (line : LineName)
  | pulseDelayExpiry (n : Nr) (line : BoothLine)
  | pulseWidthExpiry (n : Nr) (line : BoothLine)
  | blinkHalfPeriodExpiry (n : Nr) (line : BoothLine)
  | progArrival (n : Nr) (frame : Frame)
  | annArrival (sample : Sample)
  | inputSilenceExpiry (input : Input)
  | sampleInstant
  | blockBoundary (n : Nr)
  | audioSet (r : Req) (field : Nat) (settings : AudioSettings)
  | audioStatus (r : Req) (field : Nat)
  | announce (r : Req) (kind : AnnKind) (pattern : Nat) (targets : List Nat) (priority maxDuration : Nat)
  | announceEnd (r : Req) (id : Nat)
  | chimeDefine (r : Req) (pattern count : Nat) (notes : List Note) (level : Nat)
  | chimeNoteEnd (n : Nr)
  | chimeVoiceFinished (n : Nr)
  | announceDurationExpiry (id : Nat)
  | sourceLossExpiry
  | lineSet (r : Req) (field : Nat) (settings : LineSettings)
  | lineStart (r : Req) (field : Nat)
  | lineStop (r : Req) (field : Nat)
  | startingComplete (n : Nr)
  | lfaultLevelChange (n : Nr) (samples : List Bool)
  | autoSurveyExpiry (n : Nr)
  | audioFrameDone (n : Nr)
  | replyWindowEnd (n : Nr) (bits : List Bool)
  | postSilenceTimeout (n : Nr) (address : Fin 97)
  | downMessageAgeLimit (n : Nr) (number : Nat)
  | postRead (r : Req) (field address : Nat)
  | postSet (r : Req) (field address : Nat) (disabled left right : Bool) (position : Nat)
  | postSend (r : Req) (field address : Nat) (message : BoothMessage)
  | exciterSet (r : Req) (field : Nat) (carrier : Bool) (channel : Nat)
  | lineSurveyStart (r : Req) (field : Nat)
  | lineSurveyRead (r : Req) (field : Nat)
  | surveyBeginAtBoundary (n : Nr)
  | surveyStepLaunch (n : Nr) (samples : List Int)
  | surveyComplete (n : Nr)
  | surveyReturnToRunning (n : Nr)
  | laneFirstSample (n : Nr) (a b : Bool)
  | loopLevelChange (n : Nr) (samples : List (Bool × Bool))
  | blockedTimerExpiry (n : Nr) (loop : LoopName)
  | admissionExpiry (n : Nr) (id : Nat)
  | laneSet (r : Req) (lane : Nat) (settings : LaneSettings)
  | admitCar (r : Req) (lane field : Nat) (cls : VehicleClass) (occupants : Nat) (override : Bool)
  | admitCancel (r : Req) (lane id : Nat)
  | countRead (r : Req) (lane : Nat)
  | countAdjustSetSite (r : Req) (value : BitVec 32)
  | countAdjustClearLane (r : Req) (lane : Nat)
  | seatTimeout (n : Nr) (index : Nat)
  | fieldSet (r : Req) (field : Nat) (settings : FieldSettings)
  | fieldStatus (r : Req) (field : Nat)
  | menuLoadReplace (r : Req) (count : Nat) (items : List MenuItem)
  | menuLoadAppend (r : Req) (count : Nat) (items : List MenuItem)
  | menuItemSet (r : Req) (code price : Nat) (availability : Availability)
  | stationSet (r : Req) (staff : Four Nat) (limit : Nat)
  | orderingSet (r : Req) (field : Nat) (isOpen : Bool)
  | orderAccept (r : Req) (number : Nat)
  | orderStagePreparing (r : Req) (number : Nat)
  | orderStageReady (r : Req) (number window : Nat)
  | orderCollected (r : Req) (number : Nat)
  | orderCancel (r : Req) (number : Nat) (reason : BoothReason)
  | orderRead (r : Req) (number : Nat)
  | acceptanceTimerExpiry (number : Nat)
  | reminderTimerExpiry (number : Nat)
  | staleTimerExpiry (number : Nat)
  | bayEmptyTimerExpiry (number : Nat)
  | linkByteReceived (byte : Byte)
  | framingError
  deriving DecidableEq, Repr

end Sys2Proof
end

