-- ==== Sys2Proof/Decode.lean ====
section
/-! DEFINITION. The command that a word spells by the bits of spec/opcode_table.json. Every row of the table has an empty list of
fields, so no word spells a command (log 32): commands come as the link's bytes, as typed requests and as events. -/

namespace Sys2Proof

/-- The command a word of the table spells: none, since no row gives bits (log 32). -/
def decodeTableWord (_nbits _w : Nat) : Option Instr := none

end Sys2Proof
end

