-- ==== Sys2Proof/Machine/State.lean ====
section
/-! DEFINITION. The state of the part as plain data, the records of its blocks, the reports and replies it makes, and
`State.reset`: the part right after a power-on reset. Moments and timers are counts of milliseconds of the model's own clock
(log 3): an idle timer is `none`, a running one is the moment at which it expires. -/

namespace Sys2Proof.Machine

/-! ### Screen timeline (chapter 1) -/

/-- The two states of the frame filter (R1). -/
inductive FilterPhase where
  | waitLow | waitHigh
  deriving DecidableEq, Repr

/-- The frame filter with its run count (R1). -/
structure FrameFilter where
  phase : FilterPhase
  run : Nat
  deriving DecidableEq, Repr

/-- The show states (section 1.4). -/
inductive ShowState where
  | empty | loaded | armed | running | holding | stopped | ended
  deriving DecidableEq, Repr

/-- A cue of a cue list with its fired mark (R4). -/
structure Cue where
  number : Nat
  position : Nat
  action : CueAction
  fired : Bool
  deriving DecidableEq, Repr

/-- Screen timeline (chapter 1 introduction). SHOW_HOLDING and PROJECTION_STALLED stand in the condition set. -/
structure Screen where
  filter : FrameFilter
  state : ShowState
  position : Nat
  cues : List Cue
  stall : Option Nat
  maxHold : Option Nat
  overrun : Nat
  settings : ScreenSettings
  deriving DecidableEq, Repr

/-! ### Booth output unit (chapter 2) -/

/-- The operation state of a line (section 2.1). -/
inductive OpState where
  | steady | pulseWait | pulseOn | blink
  deriving DecidableEq, Repr

/-- The line record of a cue-driven line (section 2.1). The force mark holds the level it names. -/
structure LineRec where
  sense : Sense
  level : Level
  op : OpState
  force : Option Level
  timer : Option Nat
  width : Option Nat
  halfPeriod : Option Nat
  deriving DecidableEq, Repr

/-- Booth output unit: six line records and the level of the HOLD line. -/
structure OutputUnit where
  lines : Six LineRec
  hold : Level
  deriving DecidableEq, Repr

/-- The outcome a cue carries in its report (R17, R18). -/
inductive CueOutcome where
  | done | suppressedForced | pulseBusy | held | passed
  deriving DecidableEq, Repr

/-! ### Program intake and field mixer (chapter 3) -/

/-- Program intake: presence and silence timer (sample instants left) of each input, and the ANN holding slot (section 3.1). -/
structure Intake where
  progPresent : Four Bool
  annPresent : Bool
  progSilence : Four (Option Nat)
  annSilence : Option Nat
  slot : Sample
  fresh : Bool
  deriving DecidableEq, Repr

/-- The states of the fade (section 3.5). -/
inductive FadeState where
  | silent | fadingIn | opened | fadingOut
  deriving DecidableEq, Repr

/-- The states of the duck (section 3.6). -/
inductive DuckState where
  | full | ducking | ducked | releasing
  deriving DecidableEq, Repr

/-- The settings a mixer takes into use at a block boundary (R44). -/
structure BlockSettings where
  trim : Nat
  annGain : Nat
  duckDepth : Nat
  rampDown : Nat
  rampUp : Nat
  deriving DecidableEq, Repr

/-- A pending change: its target D and its route mark (section 3.5). -/
structure PendingChange where
  target : Nat
  route : Bool
  deriving DecidableEq, Repr

/-- One output sample frame of a mixer; each value lies in -32768..32767 (R60). -/
structure OutFrame where
  left : Int
  right : Int
  deriving DecidableEq, Repr

/-- Field mixer (chapter 3). -/
structure Mixer where
  settings : AudioSettings
  inUse : BlockSettings
  appliedD : Nat
  appliedRoute : Nr
  change : Option PendingChange
  fade : FadeState
  fadeGain : Nat
  duck : DuckState
  duckGain : Nat
  liveNoted : Bool
  block : List OutFrame
  clamped : Bool
  deriving DecidableEq, Repr

/-- The delay line of a field: its write index, and its fresh slots by slot number in rising order (R47, log 14). -/
structure DelayLine where
  writeIndex : Nat
  slots : List (Nat × Frame)
  deriving DecidableEq, Repr

/-! ### Announcement unit (chapter 4) -/

/-- The origin of an announcement (R63). -/
inductive Origin where
  | host | cue | hold
  deriving DecidableEq, Repr

/-- The phases of an announcement (R63). -/
inductive AnnPhase where
  | queued | ducking | chime | live | releasing
  deriving DecidableEq, Repr

/-- An announcement record (R63). -/
structure Ann where
  id : Nat
  kind : AnnKind
  pattern : Nat
  targets : Four Bool
  priority : Nat
  maxDuration : Nat
  origin : Origin
  phase : AnnPhase
  awaited : Four Bool
  timer : Option Nat
  deriving DecidableEq, Repr

/-- Why an announcement's record was removed (R78). -/
inductive AnnReason where
  | complete | ended | timeout | noSource | cancelled | preempted
  deriving DecidableEq, Repr

/-- A chime pattern (R72, R79). -/
structure Pattern where
  notes : List Note
  level : Nat
  deriving DecidableEq, Repr

/-- A chime voice (R72): idle; started, with its copy of the pattern, and waiting for its field's next block boundary; or
sounding the first of the notes left, `k` sample instants into it. -/
inductive Voice where
  | idle
  | started (notes : List Note) (level : Nat)
  | sounding (notes : List Note) (level k : Nat)
  deriving DecidableEq, Repr

/-- Announcement unit. The field slots and the live source are held by the active records (R67). -/
structure AnnounceUnit where
  queue : List Ann
  active : List Ann
  voices : Four Voice
  sourceLoss : Option Nat
  nextId : Nat
  patterns : List Pattern
  deriving DecidableEq, Repr

/-! ### Down messages, posts and field lines (chapters 5 to 7) -/

/-- A bay side (00_scope.md section 4). -/
inductive Side where
  | left | right
  deriving DecidableEq, Repr

/-- The statuses of an ORDER_STATUS notice (R187). -/
inductive NoticeStatus where
  | received | released | accepted | preparing | ready | onItsWay | reminder
  | cancelled | rejected | tooLate | notFound
  deriving DecidableEq, Repr

/-- A down message with its body (R115). -/
inductive DownMsg where
  | display (side : DownSide) (seconds : Nat) (text : List Byte)
  | orderStatus (side : Side) (number : Nat) (status : NoticeStatus) (detail total last : Nat)
  | chime (side : DownSide) (pattern : Nat)
  | bayConfig (left right : Bool)
  | exciter (carrier : Bool) (channel : Nat)
  deriving DecidableEq, Repr

/-- The kind of a down message, as reports and readouts name it (R115, R121, R125). -/
inductive DownKind where
  | display | orderStatus | chime | bayConfig | exciter
  deriving DecidableEq, Repr

/-- The source of a down message; an ORDER message names its order (R116). -/
inductive DownSource where
  | host
  | order (number : Nat)
  deriving DecidableEq, Repr

/-- Whether an entry is waiting, or outstanding with its send count 1-3 and polls-waited count 0-3 (R116). -/
inductive DownMark where
  | waiting
  | outstanding (sends polls : Nat)
  deriving DecidableEq, Repr

/-- An entry of a down queue (R116). -/
structure DownEntry where
  number : Nat
  address : Nat
  msg : DownMsg
  source : DownSource
  entered : Nat
  mark : DownMark
  deriving DecidableEq, Repr

/-- Why a down message was dropped (R121). -/
inductive DropReason where
  | noAck | notPresent | lineStopped
  deriving DecidableEq, Repr

/-- The states of a node record (R101). -/
inductive NodeState where
  | absent | present | silent | disabled
  deriving DecidableEq, Repr

/-- The presence of a bay (R101). -/
inductive Presence where
  | empty | occupied | unknown
  deriving DecidableEq, Repr

/-- A bay of a post (R101). -/
structure Bay where
  presence : Presence
  enabled : Bool
  emptySince : Option Nat
  deriving DecidableEq, Repr

/-- The error latch: a set of outcome kinds (R101). -/
structure ErrorLatch where
  noReply : Bool
  crc : Bool
  abort : Bool
  overlength : Bool
  wrongAddress : Bool
  deriving DecidableEq, Repr

/-- A node record (R101). The record of address 0, the exciter's, uses the state, the down toggle, the error count, the latch
and the silence timer; its other items keep their reset values and are never read (log 27). -/
structure Node where
  state : NodeState
  left : Bay
  right : Bay
  speakerFault : Bool
  keypadFault : Bool
  downToggle : Bool
  upToggle : Option Bool
  errors : Nat
  latch : ErrorLatch
  silence : Option Nat
  position : Option Nat
  deriving DecidableEq, Repr

/-- The post table of a line: 97 node records, the exciter's own items, the down queue and the poll schedule (chapter 6). -/
structure PostTable where
  nodes : Vector Node 97
  reqCarrier : Bool
  channel : Nat
  carrier : Bool
  powerLow : Bool
  queue : List DownEntry
  counter : Nat
  pollPosition : Option (Fin 97)
  discovery : Fin 97
  cycle : Nat
  deriving DecidableEq, Repr

/-- The line states (section 5.4). -/
inductive LineState where
  | off | starting | running | survey | fault
  deriving DecidableEq, Repr

/-- The six outcomes of a reply window (R87). -/
inductive WindowOutcome where
  | good | noReply | crc | abort | overlength | wrongAddress
  deriving DecidableEq, Repr

/-- The reply tallies, 32-bit wrapping counts (R90). -/
structure Tallies where
  good : BitVec 32
  noReply : BitVec 32
  crc : BitVec 32
  abort : BitVec 32
  overlength : BitVec 32
  wrongAddress : BitVec 32
  deriving DecidableEq, Repr

/-- What the part does on the pair (R81, R88): nothing; flags; an AUDIO frame in flight; the DOWN and POLL frames or the reply
window of a cycle; or the survey unit has the pair. -/
inductive Wire where
  | undriven | flags | audio | exchange | survey
  deriving DecidableEq, Repr

/-- How the last thing on the pair came to its end (R83, R93, R94). -/
inductive Ending where
  | nothingYet | complete | aborted | cutOff | windowClosed
  deriving DecidableEq, Repr

/-- The AUDIO frame of a cycle: its block sequence and its block (R85). -/
structure AudioFrame where
  sequence : Byte
  block : List OutFrame
  deriving DecidableEq, Repr

/-- The DOWN frame of a cycle; toggle 2 is a broadcast's (R117). -/
structure DownFrame where
  address : Nat
  toggle : Nat
  msg : DownMsg
  deriving DecidableEq, Repr

/-- The POLL frame of a cycle: its address, its acknowledgment (2 for NONE), and whether it is a discovery poll (R103, R104). -/
structure Poll where
  address : Fin 97
  ack : Nat
  discovery : Bool
  deriving DecidableEq, Repr

/-- A filtered input level with its run count (R95). -/
structure FilteredLevel where
  level : Bool
  run : Nat
  deriving DecidableEq, Repr

/-- Field line controller (chapter 5). -/
structure LineCtl where
  state : LineState
  started : Bool
  startCount : Nat
  lfault : FilteredLevel
  autoTimer : Option Nat
  sequence : Byte
  tallies : Tallies
  settings : LineSettings
  wire : Wire
  ending : Ending
  audioFrame : Option AudioFrame
  downFrame : Option DownFrame
  poll : Option Poll
  deriving DecidableEq, Repr

/-- The states of a survey (chapter 7). -/
inductive SurveyState where
  | idle | waiting | measuring
  deriving DecidableEq, Repr

/-- The cause of a survey (R127, R128). -/
inductive SurveyCause where
  | request | autoSurvey
  deriving DecidableEq, Repr

/-- The outcome of a survey (R132, R133). -/
inductive SurveyOutcome where
  | complete | aborted
  deriving DecidableEq, Repr

/-- The kind of a reflection (R130). -/
inductive ReflectionKind where
  | opened | short
  deriving DecidableEq, Repr

/-- A reflection record (R130). -/
structure Reflection where
  tap : Nat
  kind : ReflectionKind
  magnitude : Nat
  distance : Nat
  nearest : Option Nat
  deriving DecidableEq, Repr

/-- The last survey result (R134). -/
structure SurveyResult where
  outcome : SurveyOutcome
  cause : SurveyCause
  returnTo : LineState
  velocity : Nat
  threshold : Nat
  records : List Reflection
  deriving DecidableEq, Repr

/-- Line survey unit (chapter 7). `positions` lists the posts that have a copied position; `taps` the taps other than 0; `launch` is
the moment of the step's launch, 20 ms into MEASURING, while the launch is to come (R129). -/
structure SurveyUnit where
  state : SurveyState
  cause : SurveyCause
  velocity : Nat
  threshold : Nat
  returnTo : LineState
  positions : List (Nat × Nat)
  taps : List (Nat × Int)
  timer : Option Nat
  launch : Option Nat
  last : Option SurveyResult
  deriving DecidableEq, Repr

/-! ### Gate (chapter 8) -/

/-- A blocked timer (R144). -/
inductive BlockedTimer where
  | idle
  | running (until_ : Nat)
  | expired
  deriving DecidableEq, Repr

/-- A loop's filtered level, run count and blocked timer. -/
structure LoopState where
  level : Bool
  run : Nat
  blocked : BlockedTimer
  deriving DecidableEq, Repr

/-- The decoder states (section 8.3). -/
inductive Decoder where
  | clear | inA | inAB | inB | outB | outBA | outA
  deriving DecidableEq, Repr

/-- The lane counts, 32-bit wrapping (R142). -/
structure LaneCounts where
  entries : BitVec 32
  exits : BitVec 32
  balks : BitVec 32
  unpaid : BitVec 32
  wrongWay : BitVec 32
  deriving DecidableEq, Repr

/-- An admission (R145). -/
structure Admission where
  id : Nat
  field : Nr
  cls : VehicleClass
  occupants : Nat
  arrived : Nat
  timer : Nat
  deriving DecidableEq, Repr

/-- Gate lane decoder and admission queue of a lane. -/
structure Lane where
  settings : LaneSettings
  sampled : Bool
  loopA : LoopState
  loopB : LoopState
  armed : Bool
  decoder : Decoder
  held : Nat
  counts : LaneCounts
  queue : List Admission
  deriving DecidableEq, Repr

/-- The gate: four lanes, the site vehicle count, the admission id counter. -/
structure Gate where
  lanes : Four Lane
  site : Nat
  nextId : Nat
  deriving DecidableEq, Repr

/-- What a PASS report says of the admission that its vehicle took (R143). -/
structure PassAdmission where
  id : Nat
  field : Nr
  cls : VehicleClass
  occupants : Nat
  deriving DecidableEq, Repr

/-- The direction a pass carries (R140). -/
inductive PassDirection where
  | entry | exit
  deriving DecidableEq, Repr

/-- The flags of a pass (R143). -/
structure PassFlags where
  balk : Bool
  tailgate : Bool
  wrongWay : Bool
  unpaid : Bool
  clamped : Bool
  deriving DecidableEq, Repr

/-! ### Occupancy (chapter 9) -/

/-- An inbound entry (R155). -/
structure Inbound where
  id : Nat
  arrived : Nat
  timer : Nat
  deriving DecidableEq, Repr

/-- Occupancy unit. -/
structure Occupancy where
  capacity : Nat
  seated : Nat
  available : Nat
  inbound : List Inbound
  settings : FieldSettings
  deriving DecidableEq, Repr

/-- Why an inbound entry left unseated (R156). -/
inductive InboundReason where
  | timeout | overflow
  deriving DecidableEq, Repr

/-! ### Order table (chapters 10 and 11) -/

/-- The modes of an order (R169). -/
inductive OrderMode where
  | pickup | runner | intermission
  deriving DecidableEq, Repr

/-- The states of an order (R169). -/
inductive OrderState where
  | deferred | received | accepted | preparing | ready
  deriving DecidableEq, Repr

/-- A line of an order (R169). -/
structure OrderLine where
  code : Nat
  quantity : Nat
  deriving DecidableEq, Repr

/-- An order record with its timers (R169, chapter 11 introduction). -/
structure Order where
  number : Nat
  field : Nr
  post : Fin 97
  side : Side
  lines : List OrderLine
  work : Four Nat
  total : Nat
  mode : OrderMode
  state : OrderState
  placed : Nat
  stateEntered : Nat
  estimate : Nat
  window : Option Nr
  owed : Option NoticeStatus
  reminderSent : Bool
  bayEmptyReported : Bool
  acceptance : Option Nat
  reminder : Option Nat
  stale : Option Nat
  bayEmpty : Option Nat
  deriving DecidableEq, Repr

/-- Why an order ended (R180). -/
inductive EndReason where
  | collected | customer | noKitchen | booth
  deriving DecidableEq, Repr

/-- Order table. -/
structure OrderTable where
  menu : List MenuItem
  staff : Four Nat
  limit : Nat
  backlog : Four Nat
  ordering : Four Bool
  live : List Order
  nextNumber : Nat
  windows : Four (List Nat)
  deriving DecidableEq, Repr

/-! ### Conditions and reports (chapter 12) -/

/-- The conditions (R201). -/
inductive Cond where
  | programPresent (n : Nr)
  | clipped (n : Nr)
  | announceSourcePresent
  | showHolding (n : Nr)
  | projectionStalled (n : Nr)
  | lineUp (n : Nr)
  | fmFault (n : Nr)
  | fieldFull (n : Nr)
  | laneBlocked (n : Nr)
  | orderingOpen (n : Nr)
  | kitchenSaturated
  deriving DecidableEq, Repr

/-- The report sources (R198). -/
inductive Source where
  | show | audio | announce | line | gate | field | order | condition
  deriving DecidableEq, Repr

/-- The reason of STARTED (R207). -/
inductive StartReason where
  | powerOn | restartAll | restartState
  deriving DecidableEq, Repr

/-- The cause of a SHOW_STATE report (R15). -/
inductive ShowCause where
  | request | endCue | positionLimit
  deriving DecidableEq, Repr

/-- Why a hold ended (R25). -/
inductive HoldReason where
  | seated | timeout | operator | stopped
  deriving DecidableEq, Repr

/-- The cause of a LINE_STATE report (R98). -/
inductive LineCause where
  | request | startDone | lfault | autoSurvey | surveyEnd
  deriving DecidableEq, Repr

/-- The cause of a POST_STATE report (R111). -/
inductive PostCause where
  | reply | errors | silenceTimeout | request | status
  deriving DecidableEq, Repr

/-- The call kinds of an upstream CALL (R114). -/
inductive CallKind where
  | help | service
  deriving DecidableEq, Repr

/-- What a POST_STATE report says of its node after the change (R111). -/
inductive PostDetail where
  | post (speakerFault keypadFault : Bool) (left right : Presence)
  | exciter (carrier powerLow : Bool)
  deriving DecidableEq, Repr

/-- What an ANNOUNCE_STATE report says has come: a phase, or the mark ENDED with its reason (R78). -/
inductive AnnMark where
  | phase (p : AnnPhase)
  | ended (reason : AnnReason)
  deriving DecidableEq, Repr

/-- The reports of the part, each with the items its rule lists, in the order listed (R198). -/
inductive Report where
  /-- R207 -/
  | started (reason : StartReason)
  /-- R15 -/
  | showState (screen : Nr) (previous new : ShowState) (position : Nat) (cause : ShowCause)
  /-- R17; the action with its parameters (log 42) -/
  | cueFired (screen : Nr) (number position : Nat) (action : CueAction) (outcome : Option CueOutcome)
  /-- R23 -/
  | holdBegan (screen : Nr) (number position inbound threshold : Nat)
  /-- R25 -/
  | holdEnded (screen : Nr) (reason : HoldReason) (overrun position : Nat)
  /-- R78 -/
  | announceState (id : Nat) (kind : AnnKind) (pattern : Nat) (targets : Four Bool) (priority : Nat) (origin : Origin)
      (mark : AnnMark)
  /-- R66 -/
  | announceDropped (origin : Origin) (field : Nr) (pattern priority : Nat)
  /-- R98 -/
  | lineState (field : Nr) (previous new : LineState) (cause : LineCause)
  /-- R111 -/
  | postState (field : Nr) (address : Nat) (previous new : NodeState) (cause : PostCause) (detail : PostDetail)
  /-- R114 -/
  | postCall (field : Nr) (address : Nat) (side : Side) (call : CallKind)
  /-- R121 -/
  | downFailed (field : Nr) (address number : Nat) (kind : DownKind) (source : DownSource) (reason : DropReason)
  /-- R132, R133 -/
  | surveyDone (field : Nr) (outcome : SurveyOutcome) (cause : SurveyCause) (velocity threshold : Nat) (records : List Reflection)
  /-- R143 -/
  | pass (lane : Nr) (direction : PassDirection) (flags : PassFlags) (admission : Option PassAdmission) (site : Nat)
  /-- R148 -/
  | admitExpired (lane : Nr) (id : Nat) (field : Nr) (cls : VehicleClass) (occupants waited : Nat)
  /-- R156 -/
  | inboundExpired (field : Nr) (id : Nat) (reason : InboundReason) (waited count : Nat)
  /-- R192 -/
  | orderNew (number : Nat) (field : Nr) (post : Nat) (side : Side) (mode : OrderMode) (lines : List OrderLine)
      (total estimate : Nat) (work : Four Nat)
  /-- R180 -/
  | orderEnded (number : Nat) (field : Nr) (post : Nat) (side : Side) (mode : OrderMode) (state : OrderState)
      (reason : EndReason) (booth : Option BoothReason)
  /-- R191; the seconds are 1800 -/
  | orderStale (number : Nat) (field : Nr) (post : Nat) (side : Side) (mode : OrderMode) (window : Option Nr) (seconds : Nat)
  /-- R192 -/
  | orderBayEmpty (number : Nat) (field : Nr) (post : Nat) (side : Side) (state : OrderState) (mode : OrderMode)
  /-- R202; the place is the field or lane, 0 for a site condition -/
  | condition (number place : Nat) (level latch : Bool)
  deriving DecidableEq, Repr

/-- A report in the report queue with its lost bit (R200). -/
structure QueuedReport where
  lost : Bool
  report : Report
  deriving DecidableEq, Repr

/-! ### Replies -/

/-- The result codes (section 12.3). -/
inductive Result where
  | ok | unknownRequest | badLength | badValue | wrongState | full | notFound | tooLate | fieldFull | busy
  deriving DecidableEq, Repr

/-- The link rates (R193). -/
inductive Rate where
  | baud115200 | baud460800 | baud921600 | baud2000000
  deriving DecidableEq, Repr

/-- The reply of SHOW_STATUS (R16). -/
structure ShowReadout where
  state : ShowState
  position : Nat
  cues : Nat
  fired : Nat
  nextIntermission : Option (Nat × Nat)
  releasePosition : Option Nat
  releaseHolds : Bool
  overrun : Nat
  holdSeconds : Nat
  showHolding : Bool
  projectionStalled : Bool
  settings : ScreenSettings
  deriving DecidableEq, Repr

/-- One cue-driven line in the reply of OUTPUT_SET, OUTPUT_FORCE and OUTPUT_UNFORCE (R30). -/
structure LineReadout where
  sense : Sense
  level : Level
  op : OpState
  force : Option Level
  left : Nat
  deriving DecidableEq, Repr

/-- The reply of AUDIO_STATUS (R46). -/
structure AudioReadout where
  settings : AudioSettings
  appliedD : Nat
  appliedRoute : Nr
  change : Option PendingChange
  fade : FadeState
  fadeGain : Nat
  duck : DuckState
  duckGain : Nat
  programPresent : Bool
  clipped : Bool
  progPresent : Four Bool
  annPresent : Bool
  deriving DecidableEq, Repr

/-- The reply of LINE_SET (R99). -/
structure LineStatus where
  state : LineState
  lfault : Bool
  lineUp : Bool
  surveyWaiting : Bool
  autoLeft : Nat
  sequence : Byte
  tallies : Tallies
  deriving DecidableEq, Repr

/-- An outstanding message in a node's readout (R125). -/
structure OutstandingReadout where
  number : Nat
  kind : DownKind
  sends : Nat
  polls : Nat
  due : Bool
  deriving DecidableEq, Repr

/-- The reply of POST_READ: the whole record with its times (R125). The empty-since values stand as whole seconds elapsed. -/
inductive NodeReadout where
  | post (address : Nat) (node : Node) (leftEmpty rightEmpty silenceLeft : Nat) (outstanding : Option OutstandingReadout)
  | exciter (state : NodeState) (downToggle : Bool) (errors : Nat) (latch : ErrorLatch) (silenceLeft : Nat)
      (carrier powerLow reqCarrier : Bool) (channel : Nat) (outstanding : Option OutstandingReadout)
  deriving DecidableEq, Repr

/-- An admission as LIST_READ gives it (R145). -/
structure AdmissionReadout where
  id : Nat
  field : Nr
  cls : VehicleClass
  occupants : Nat
  elapsed : Nat
  left : Nat
  deriving DecidableEq, Repr

/-- The state of a blocked timer as COUNT_READ gives it, its seconds left apart (R150). -/
inductive BlockedReadout where
  | idle | running | expired
  deriving DecidableEq, Repr

/-- The reply of COUNT_READ (R150). -/
structure LaneReadout where
  settings : LaneSettings
  levelA : Bool
  levelB : Bool
  armed : Bool
  decoder : Decoder
  held : Nat
  blockedA : BlockedReadout
  blockedLeftA : Nat
  blockedB : BlockedReadout
  blockedLeftB : Nat
  laneBlocked : Bool
  counts : LaneCounts
  queued : Nat
  site : Nat
  deriving DecidableEq, Repr

/-- The reply of FIELD_STATUS (R161). -/
structure FieldReadout where
  capacity : Nat
  effective : Nat
  seated : Nat
  inbound : Nat
  available : Nat
  fieldFull : Bool
  settings : FieldSettings
  line : LineState
  oldest : Option (Nat × Nat)
  deriving DecidableEq, Repr

/-- The reply of STATION_SET (R167). -/
structure StationReadout where
  staff : Four Nat
  backlog : Four Nat
  load : Four Nat
  limit : Nat
  saturated : Bool
  deriving DecidableEq, Repr

/-- An order as ORDER_READ gives it (R178). -/
structure OrderReadout where
  number : Nat
  field : Nr
  post : Nat
  side : Side
  lines : List OrderLine
  total : Nat
  mode : OrderMode
  state : OrderState
  sincePlaced : Nat
  sinceState : Nat
  estimate : Nat
  minutes : Nat
  window : Option Nr
  owed : Option NoticeStatus
  reminderSent : Bool
  bayEmptyReported : Bool
  work : Four Nat
  deriving DecidableEq, Repr

/-- An order of a window queue as LIST_READ gives it (R185). -/
structure WindowReadout where
  number : Nat
  field : Nr
  post : Nat
  side : Side
  mode : OrderMode
  sinceReady : Nat
  reminderSent : Bool
  deriving DecidableEq, Repr

/-- An entry of a collection (R204). -/
inductive ListEntry where
  | cue (c : Cue)
  | node (n : NodeReadout)
  | admission (a : AdmissionReadout)
  | inbound (id elapsed left : Nat)
  | order (o : OrderReadout)
  | window (o : WindowReadout)
  | announcement (a : Ann) (left : Nat)
  | item (i : MenuItem)
  deriving DecidableEq, Repr

/-- When an accepted survey begins (R127). -/
inductive SurveyBegin where
  | atOnce | atBoundary
  deriving DecidableEq, Repr

/-- The body of an OK reply after its result byte. -/
inductive ReplyBody where
  | empty
  | identity (vendor partNumber major minor : Nat) (serial : BitVec 32) (fieldCount : Nat)
  | linkStatus (rate : Rate) (discarded : BitVec 32) (requests busy reports : Nat) (lost : Bool)
  | masks (sources : BitVec 8) (rise fall : BitVec 38)
  | conditions (live latch : BitVec 38)
  | list (collection param returned next : Nat) (entries : List ListEntry)
  | show (r : ShowReadout)
  | outputs (lines : Six LineReadout) (hold : Level)
  | audio (r : AudioReadout)
  | announceId (id : Nat)
  | line (r : LineStatus)
  | node (r : NodeReadout)
  | messageNumber (number : Nat)
  | surveyStarted (start : SurveyBegin) (velocity threshold : Nat)
  | survey (state : SurveyState) (current : Option (SurveyCause × Nat × Nat × Nat)) (last : Option SurveyResult)
  | lane (r : LaneReadout)
  | admitted (id depth : Nat)
  | depth (depth : Nat)
  | siteCount (count : Nat)
  | field (r : FieldReadout)
  | menuCount (count : Nat)
  | menuItem (item : MenuItem)
  | stations (r : StationReadout)
  | ordering (isOpen : Bool)
  | order (r : OrderReadout)
  deriving DecidableEq, Repr

/-- A reply: when it was made, its kind, its tag, its result and the rest of its body (R196). -/
structure Reply where
  made : Nat
  kind : Byte
  tag : Byte
  result : Result
  body : ReplyBody
  deriving DecidableEq, Repr

/-! ### Control link (chapter 12) -/

/-- The receiver's states (R195, R207). -/
inductive RxState where
  | startUp | hunt | length | frame
  deriving DecidableEq, Repr

/-- The receiver: its state, the bytes received after the marker, the gap timer (R195). -/
structure Receiver where
  state : RxState
  kept : List Byte
  gap : Option Nat
  deriving DecidableEq, Repr

/-- A request in the request buffer: waiting, or answered with its reply not yet sent in full (R196). It has its body's bytes where
the receiver found its frame, and none where its own command brought it (log 2). -/
structure Request where
  kind : Byte
  tag : Byte
  body : Option (List Byte)
  reply : Option Reply
  deriving DecidableEq, Repr

/-- The transmitter: idle, or sending a reply of the request buffer, a busy reply, or a report (R197). -/
inductive Transmitter where
  | idle
  | reply (r : Reply)
  | busy (r : Reply)
  | report (q : QueuedReport)
  deriving DecidableEq, Repr

/-- The scope of a RESTART (R206). -/
inductive Scope where
  | all | state
  deriving DecidableEq, Repr

/-- Control link. `restart` is an accepted RESTART whose effect has not come; `restartDue` says that its reply has been sent. -/
structure Link where
  rate : Rate
  rx : Receiver
  requests : List Request
  busy : List Reply
  tx : Transmitter
  restart : Option Scope
  restartDue : Bool
  replyCount : Nat
  enables : BitVec 8
  queue : List QueuedReport
  lost : Bool
  live : BitVec 38
  rise : BitVec 38
  fall : BitVec 38
  latch : BitVec 38
  discarded : BitVec 32
  deriving DecidableEq, Repr

/-! ### The whole part -/

/-- The state of the part, with the queue of commands that wait for it. -/
structure State where
  clock : Nat
  freeCount : Nat
  pending : List Instr
  link : Link
  screens : Four Screen
  outputs : Four OutputUnit
  intake : Intake
  mixers : Four Mixer
  delays : Four DelayLine
  announce : AnnounceUnit
  lines : Four LineCtl
  posts : Four PostTable
  surveys : Four SurveyUnit
  gate : Gate
  fields : Four Occupancy
  orders : OrderTable
  deriving DecidableEq, Repr

/-- Reasons for which the part stops. There are none: no rule of the manual stops the part, and no command of this model ends in
a fault. The line state FAULT is a state (R93), not a stop. -/
inductive Fault where
  deriving DecidableEq, Repr

/-- Commands the model has no meaning for. -/
inductive Refusal where
  /-- Raised by an arm of `exec` for a row whose meaning is not written; safe. No arm of this model raises it. -/
  | notModelled (mnemonic : String)
  deriving DecidableEq, Repr

/-! ### Reset values -/

/-- R3, R28. -/
def Screen.reset : Screen :=
  { filter := ⟨.waitLow, 0⟩, state := .empty, position := 0, cues := [], stall := none, maxHold := none, overrun := 0,
    settings := { frameRate := 24, stallTime := 250, holdEnable := false, holdThreshold := 5, maxHold := 300, holdChime := 0,
                  orderLead := 600 } }

/-- R40. -/
def LineRec.reset : LineRec :=
  { sense := .high, level := .released, op := .steady, force := none, timer := none, width := none, halfPeriod := none }

/-- R40. -/
def OutputUnit.reset : OutputUnit :=
  { lines := ⟨.reset, .reset, .reset, .reset, .reset, .reset⟩, hold := .released }

/-- R42, R43, R62. -/
def Intake.reset : Intake :=
  { progPresent := .all false, annPresent := false, progSilence := .all none, annSilence := none, slot := 0, fresh := false }

/-- The settings table of R45; the route is the field's own number. -/
def AudioSettings.reset (n : Nr) : AudioSettings :=
  { route := n.toNat, trim := 4096, delay := 0, duckDepth := 1024, rampDown := 25, rampUp := 100, fieldAudio := false,
    annGain := 4096 }

/-- The settings a mixer takes into use (R44). -/
def BlockSettings.of (a : AudioSettings) : BlockSettings :=
  { trim := a.trim, annGain := a.annGain, duckDepth := a.duckDepth, rampDown := a.rampDown, rampUp := a.rampUp }

/-- R62, from the settings the mixer holds after the reset: the applied D and route equal them. -/
def Mixer.resetWith (a : AudioSettings) : Mixer :=
  { settings := a, inUse := BlockSettings.of a, appliedD := a.delay * 48, appliedRoute := (Nr.ofNat? a.route).getD .one,
    change := none, fade := .silent, fadeGain := 0, duck := .full, duckGain := 4096, liveNoted := false, block := [],
    clamped := false }

/-- R62. -/
def DelayLine.reset : DelayLine := { writeIndex := 0, slots := [] }

/-- The patterns of R79. -/
def defaultPatterns : List Pattern :=
  [ ⟨[⟨13, 120⟩, ⟨0, 40⟩, ⟨13, 120⟩], 2048⟩,
    ⟨[⟨12, 300⟩, ⟨8, 400⟩], 2048⟩,
    ⟨[⟨8, 250⟩, ⟨10, 250⟩, ⟨12, 250⟩, ⟨15, 500⟩], 2048⟩,
    ⟨[⟨12, 400⟩, ⟨0, 200⟩, ⟨12, 400⟩], 1638⟩,
    ⟨[⟨15, 200⟩, ⟨12, 200⟩, ⟨10, 200⟩, ⟨8, 400⟩], 2048⟩,
    ⟨[⟨13, 300⟩], 1638⟩,
    ⟨[⟨15, 150⟩, ⟨13, 150⟩, ⟨15, 150⟩, ⟨13, 150⟩], 2867⟩,
    ⟨[⟨5, 600⟩, ⟨8, 800⟩], 1229⟩ ]

/-- R80, with the pattern table the unit holds after the reset. -/
def AnnounceUnit.resetWith (patterns : List Pattern) : AnnounceUnit :=
  { queue := [], active := [], voices := .all .idle, sourceLoss := none, nextId := 1, patterns := patterns }

/-- R99, R100, with the settings the line holds after the reset. -/
def LineCtl.resetWith (settings : LineSettings) : LineCtl :=
  { state := .off, started := false, startCount := 0, lfault := ⟨false, 0⟩, autoTimer := none, sequence := 0,
    tallies := ⟨0, 0, 0, 0, 0, 0⟩, settings := settings, wire := .undriven, ending := .nothingYet, audioFrame := none,
    downFrame := none, poll := none }

/-- The settings table of R99. -/
def LineSettings.reset : LineSettings := { velocity := 66, threshold := 16, autoSurvey := false }

/-- No outcome latched. -/
def ErrorLatch.empty : ErrorLatch := ⟨false, false, false, false, false⟩

/-- A record as R126 leaves it after power-on: ABSENT with the values of R102, both bays enabled, no cable position. -/
def Node.reset : Node :=
  { state := .absent, left := ⟨.unknown, true, none⟩, right := ⟨.unknown, true, none⟩, speakerFault := false,
    keypadFault := false, downToggle := false, upToggle := none, errors := 0, latch := .empty, silence := none, position := none }

/-- R126. -/
def PostTable.reset : PostTable :=
  { nodes := Vector.replicate 97 Node.reset, reqCarrier := false, channel := 0, carrier := false, powerLow := false, queue := [],
    counter := 1, pollPosition := none, discovery := 96, cycle := 0 }

/-- R134. The items kept only while a survey waits or measures hold placeholders while it is IDLE (log 30). -/
def SurveyUnit.reset : SurveyUnit :=
  { state := .idle, cause := .request, velocity := 0, threshold := 0, returnTo := .off, positions := [], taps := [],
    timer := none, launch := none, last := none }

/-- R152, with the settings the lane holds after the reset. -/
def Lane.resetWith (settings : LaneSettings) : Lane :=
  { settings := settings, sampled := false, loopA := ⟨false, 0, .idle⟩, loopB := ⟨false, 0, .idle⟩, armed := false,
    decoder := .clear, held := 0, counts := ⟨0, 0, 0, 0, 0⟩, queue := [] }

/-- The settings table of R137: lanes 1-3 ENTRY, lane 4 EXIT. -/
def LaneSettings.reset (n : Nr) : LaneSettings :=
  { direction := if n = .four then .exit else .entry, filterCount := 4, blockedTime := 120, expiry := 120 }

/-- R162, with the settings the unit holds after the reset. -/
def Occupancy.resetWith (settings : FieldSettings) : Occupancy :=
  { capacity := 0, seated := 0, available := 0, inbound := [], settings := settings }

/-- The settings table of R160. -/
def FieldSettings.reset : FieldSettings := { limit := 0, seatTimeout := 900, reopenMargin := 4 }

/-- R179, with the menu and station settings the table holds after the reset. -/
def OrderTable.resetWith (menu : List MenuItem) (staff : Four Nat) (limit : Nat) : OrderTable :=
  { menu := menu, staff := staff, limit := limit, backlog := .all 0, ordering := .all false, live := [], nextNumber := 1,
    windows := .all [] }

/-- The live levels after every reset: FIELD_FULL of fields 1-4 (conditions 25-28) high, every other condition low (R202). -/
def resetLevels : BitVec 38 := 0x1E000000#38

/-- The link after a reset (R195, R196, R200, R202, R207): START_UP, nothing buffered, and STARTED alone in the report queue. -/
def Link.resetWith (rate : Rate) (enables : BitVec 8) (rise fall : BitVec 38) (reason : StartReason) : Link :=
  { rate := rate, rx := ⟨.startUp, [], none⟩, requests := [], busy := [], tx := .idle, restart := none, restartDue := false,
    replyCount := 0, enables := enables, queue := [⟨false, .started reason⟩], lost := false, live := resetLevels, rise := rise,
    fall := fall, latch := 0, discarded := 0 }

/-- The part right after a power-on reset. The straps are taken to be 0, 0 (log 8). -/
def State.reset : State :=
  { clock := 0
    freeCount := 0
    pending := []
    link := Link.resetWith .baud115200 (BitVec.allOnes 8) (BitVec.allOnes 38) (BitVec.allOnes 38) .powerOn
    screens := .all Screen.reset
    outputs := .all OutputUnit.reset
    intake := Intake.reset
    mixers := .tabulate fun n => Mixer.resetWith (AudioSettings.reset n)
    delays := .all DelayLine.reset
    announce := AnnounceUnit.resetWith defaultPatterns
    lines := .all (LineCtl.resetWith LineSettings.reset)
    posts := .all PostTable.reset
    surveys := .all SurveyUnit.reset
    gate := { lanes := .tabulate fun n => Lane.resetWith (LaneSettings.reset n), site := 0, nextId := 1 }
    fields := .all (Occupancy.resetWith FieldSettings.reset)
    orders := OrderTable.resetWith [] (.all 1) 900 }

end Sys2Proof.Machine
end

