-- ==== Sys2Proof/Machine/Flags.lean ====
section
/-! DEFINITION. The levels of the conditions as functions of the state that owns them, and the pins that follow levels. -/

namespace Sys2Proof.Machine

/-- A place 1-4 counted from 0. -/
def Nr.place (n : Nr) : Nat := n.toNat - 1

/-- The number of a condition (R201). -/
def Cond.number : Cond → Nat
  | .programPresent n => 0 + Nr.place n
  | .clipped n => 4 + Nr.place n
  | .announceSourcePresent => 8
  | .showHolding n => 9 + Nr.place n
  | .projectionStalled n => 13 + Nr.place n
  | .lineUp n => 17 + Nr.place n
  | .fmFault n => 21 + Nr.place n
  | .fieldFull n => 25 + Nr.place n
  | .laneBlocked n => 29 + Nr.place n
  | .orderingOpen n => 33 + Nr.place n
  | .kitchenSaturated => 37

/-- The field or lane of a condition, 0 for a site condition (R202). -/
def Cond.scope : Cond → Nat
  | .announceSourcePresent => 0
  | .kitchenSaturated => 0
  | .programPresent n => n.toNat
  | .clipped n => n.toNat
  | .showHolding n => n.toNat
  | .projectionStalled n => n.toNat
  | .lineUp n => n.toNat
  | .fmFault n => n.toNat
  | .fieldFull n => n.toNat
  | .laneBlocked n => n.toNat
  | .orderingOpen n => n.toNat

/-- The live level of a condition (R201). -/
def Link.level (l : Link) (c : Cond) : Bool := l.live.getLsbD (Cond.number c)

/-- The live level of a condition (R201). -/
def State.level (s : State) (c : Cond) : Bool := Link.level s.link c

/-- PROGRAM_PRESENT of a field: the presence of the input its applied route gives (R42). -/
def programPresent (s : State) (n : Nr) : Bool := s.intake.progPresent.get (s.mixers.get n).appliedRoute

/-- FM_FAULT of a field (R112). -/
def fmFault (s : State) (n : Nr) : Bool :=
  let table := s.posts.get n
  let exciter := table.nodes[0]
  (s.lines.get n).state == .running && !(exciter.state == .disabled)
    && (!(exciter.state == .present) || (!table.carrier && table.reqCarrier) || table.powerLow)

/-- FIELD_FULL after a decision, from the level before and the bays available (R158). -/
def fieldFullAfter (before : Bool) (available margin : Nat) : Bool :=
  if before then decide (available < margin) else decide (available = 0)

/-- The time a station's staff need to clear its backlog (section 10.2). -/
def stationLoad (t : OrderTable) (n : Nr) : Nat := ceilDiv (t.backlog.get n) (t.staff.get n)

/-- KITCHEN_SATURATED after a decision, from the level before (R176). -/
def saturatedAfter (t : OrderTable) (before : Bool) : Bool :=
  if before then !Nr.all.all fun n => decide (stationLoad t n ≤ t.limit - 60)
  else Nr.all.any fun n => decide (t.limit ≤ stationLoad t n)

/-- LANE_BLOCKED of a lane (R144). -/
def laneBlocked (l : Lane) : Bool := l.loopA.blocked == .expired || l.loopB.blocked == .expired

/-- The pin level that a line's level and active sense give (R29). -/
def pinLevel (sense : Sense) (level : Level) : Bool := (sense == .high) == (level == .asserted)

/-- The pin of a cue-driven line (R29). -/
def boothPin (s : State) (n : Nr) (line : BoothLine) : Bool :=
  let r := (s.outputs.get n).lines.get line
  pinLevel r.sense r.level

/-- The pin HOLDn, whose sense is HIGH (R29). -/
def holdPin (s : State) (n : Nr) : Bool := pinLevel .high (s.outputs.get n).hold

/-- The pin FULLn (R159). -/
def fullPin (s : State) (n : Nr) : Bool := State.level s (.fieldFull n)

end Sys2Proof.Machine
end

