-- ==== Sys2Proof/Machine/Open.lean ====
section
/-! DEFINITION. The items of a report's body, and what the manual leaves open about the bytes of the link, as constants without a
body: nothing can be proved about their values. -/

namespace Sys2Proof

/-- The items that reports carry, by name (R198 and the rules that list them). -/
inductive Machine.ItemName where
  | screen | field | lane | place | condition | position | previousState | newState | state | cause | reason | outcome
  | cueNumber | action | actionLine | actionOperation | actionTime | actionCode | actionChime | actionPriority
  | inboundCount | holdThreshold | overrunCount
  | announcementId | announcementKind | pattern | targets | priority | origin | phase
  | address | speakerFault | keypadFault | leftPresence | rightPresence | carrier | power | side | callKind
  | messageNumber | messageKind | messageSource | orderNumber
  | velocity | surveyThreshold | recordCount | tap | reflectionKind | magnitude | distance | nearestPost
  | direction | passFlags | admissionId | admission | vehicleClass | occupants | siteCount | waited
  | mode | lineCount | itemCode | quantity | total | estimate | work | boothReason | window | seconds
  | level | latch
  deriving DecidableEq, Repr

/-- One item of a report. A number stands as it is. Of a value that is one of some names the manual gives no code: it stands as the
model's own label, its place among the values of its type (log 10). -/
inductive Machine.Item where
  | number (name : Machine.ItemName) (value : Nat)
  | named (name : Machine.ItemName) (label : Nat)
  /-- the report lists the item for other cases than this one -/
  | absent (name : Machine.ItemName)
  deriving DecidableEq, Repr

/-- The numbers that the body of an OK reply holds after its result byte, each as the bytes it takes and its value. The rules list
the items and, but for the sets of R199 and R203, neither their sizes nor their order (logs 10, 11). -/
opaque Config.replyItems : Machine.ReplyBody → List (Nat × Nat)

/-- How many bytes a number takes in a report of a kind beyond those that its range asks for (log 10). -/
opaque Config.spareBytes : Byte → Machine.ItemName → Nat

/-- The bytes that stand in a report of a kind for one of an item's named values (log 10). -/
opaque Config.codeBytes : Byte → Machine.ItemName → Nat → List Byte

/-- The bytes, if any, that stand in a report of a kind for an item that this report has not (log 10). -/
opaque Config.absentBytes : Byte → Machine.ItemName → List Byte

end Sys2Proof
end

