-- ==== Sys2Proof/Machine/Wire.lean ====
section
/-! DEFINITION. Bytes and bits on the wires: the CRC (R84, R194), the characters and frames of the control link and the receiver's
hunt (R193, R194, R195), and the bits of field lines with the reading of a reply window (R81 to R87, R90). -/

namespace Sys2Proof.Machine

/-! ### The CRC -/

/-- The register shifted by `n` bits, most significant bit first, with polynomial 1021h (R84). -/
def crcShift : Nat → BitVec 16 → BitVec 16
  | 0, c => c
  | n + 1, c => crcShift n (if c.msb then (c <<< 1) ^^^ 0x1021#16 else c <<< 1)

/-- One byte combined into the register (R84). -/
def crcByte (c : BitVec 16) (b : Byte) : BitVec 16 := crcShift 8 (c ^^^ (b.zeroExtend 16 <<< 8))

/-- The CRC of a run of bytes: initial value FFFFh, no final inversion (R84, R194). -/
def crc16 (bytes : List Byte) : BitVec 16 := bytes.foldl crcByte 0xFFFF#16

/-- A 16-bit number as two bytes, low byte first (R81, R194). -/
def lowFirst (w : BitVec 16) : List Byte := [w.extractLsb' 0 8, w.extractLsb' 8 8]

/-- The number that two bytes hold, low byte first. -/
def fromLow (lo hi : Byte) : Nat := lo.toNat + 256 * hi.toNat

/-- Bytes with their CRC after them, low byte first (R84). -/
def withCrc (bytes : List Byte) : List Byte := bytes ++ lowFirst (crc16 bytes)

/-- A number in one byte. -/
def byteOf (n : Nat) : Byte := BitVec.ofNat 8 n

/-- A number in some bytes, low byte first (R81, R194). -/
def lowBytes : Nat → Nat → List Byte
  | 0, _ => []
  | w + 1, n => byteOf n :: lowBytes w (n / 256)

/-- The last two bytes are the CRC of those before them (R84). -/
def crcMatches (bytes : List Byte) : Bool :=
  decide (2 ≤ bytes.length) && decide (bytes.drop (bytes.length - 2) = lowFirst (crc16 (bytes.take (bytes.length - 2))))

/-! ### Characters of the control link (R193) -/

/-- A byte as its bits, least significant first (R81, R193). -/
def byteBits (b : Byte) : List Bool := (List.range 8).map b.getLsbD

/-- The byte that eight bits spell, least significant first (R81, R193). -/
def bitsByte (bits : List Bool) : Byte := BitVec.ofNat 8 (bits.foldr (fun b n => b.toNat + 2 * n) 0)

/-- A character on TXD or RXD: one low start bit, 8 data bits, least significant first, no parity, one high stop bit (R193). -/
def characterBits (b : Byte) : List Bool := false :: byteBits b ++ [true]

/-- What a character on RXD yields: a byte, or a framing error where its stop bit is low (R193). -/
inductive Character where
  | byte (b : Byte)
  | framingError
  deriving DecidableEq, Repr

/-- The characters in the bits of a line, whose idle level is high: a low bit starts one, and the bit after it ends is looked at
next (R193; log 41). -/
def characters : List Bool → List Character
  | true :: rest => characters rest
  | false :: a :: b :: c :: d :: e :: f :: g :: h :: stop :: rest =>
    (if stop then .byte (bitsByte [a, b, c, d, e, f, g, h]) else .framingError) :: characters rest
  | _ => []

/-! ### Control link frames -/

/-- The marker of a control link frame (R194). -/
def marker : Byte := 0xC5#8

/-- A control link frame: marker, length, kind, tag, body, check (R194). -/
def linkFrame (kind tag : Byte) (body : List Byte) : List Byte :=
  marker :: withCrc (lowFirst (BitVec.ofNat 16 (body.length + 2)) ++ [kind, tag] ++ body)

/-- What a hunt through a run of bytes finds: the valid frames in order (kind, tag, body), the number of frames discarded, and
the state and kept bytes in which it leaves the receiver. -/
structure Hunt where
  frames : List (Byte × Byte × List Byte)
  discards : Nat
  state : RxState
  kept : List Byte
  deriving DecidableEq, Repr

/-- R195: the hunt from HUNT through bytes. Each level of `fuel` drops at least one byte. -/
def hunt : Nat → List Byte → Hunt
  | 0, _ => ⟨[], 0, .hunt, []⟩
  | _ + 1, [] => ⟨[], 0, .hunt, []⟩
  | fuel + 1, b :: rest =>
    if b = marker then
      match rest with
      | lo :: hi :: more =>
        let len := fromLow lo hi
        if len < 2 ∨ 514 < len then
          let h := hunt fuel rest
          { h with discards := h.discards + 1 }
        else if more.length < len + 2 then ⟨[], 0, .frame, rest⟩
        else if crcMatches (lo :: hi :: more.take (len + 2)) then
          let h := hunt fuel (more.drop (len + 2))
          { h with frames := ((more.take len).headD 0, ((more.take len).drop 1).headD 0, (more.take len).drop 2) :: h.frames }
        else
          let h := hunt fuel rest
          { h with discards := h.discards + 1 }
      | _ => ⟨[], 0, .length, rest⟩
    else hunt fuel rest

/-- The hunt through a run of bytes, with fuel for all of it. -/
def huntAll (bytes : List Byte) : Hunt := hunt (bytes.length + 1) bytes

/-! ### Field line frames -/

/-- R82: a zero inserted after every run of six consecutive ones; `run` ones have just been sent. -/
def stuffFrom : Nat → List Bool → List Bool
  | _, [] => []
  | _, false :: rest => false :: stuffFrom 0 rest
  | run, true :: rest => if run = 5 then true :: false :: stuffFrom 0 rest else true :: stuffFrom (run + 1) rest

/-- The bits of a frame between its flags (R81, R82). -/
def frameBits (bytes : List Byte) : List Bool := stuffFrom 0 (bytes.flatMap byteBits)

/-- A flag: zero, seven ones, zero (R82). -/
def flag : List Bool := [false, true, true, true, true, true, true, true, false]

/-- A further flag, or the closing flag after a flag: the zero is shared (R82). -/
def sharedFlag : List Bool := [true, true, true, true, true, true, true, false]

/-- The abort the part sends: twelve consecutive ones (R83). -/
def abortBits : List Bool := List.replicate 12 true

/-- A sample as its 16 bits, low byte first. -/
def sampleBytes (v : Int) : List Byte := lowFirst (BitVec.ofInt 16 v)

/-- The AUDIO frame (R85). -/
def audioBytes (f : AudioFrame) : List Byte :=
  withCrc ([255#8, 0x01#8, f.sequence] ++ f.block.flatMap fun o => sampleBytes o.left ++ sampleBytes o.right)

/-- The byte of a bay side in a down message (R115). -/
def DownSide.code : DownSide → Byte
  | .left => 0x00#8
  | .right => 0x01#8
  | .both => 0x02#8

/-- The byte of a bay side (R114, R115). -/
def Side.code : Side → Byte
  | .left => 0x00#8
  | .right => 0x01#8

/-- The status byte of a notice (R187). -/
def NoticeStatus.code : NoticeStatus → Byte
  | .received => 0x01#8
  | .released => 0x02#8
  | .accepted => 0x03#8
  | .preparing => 0x04#8
  | .ready => 0x05#8
  | .onItsWay => 0x06#8
  | .reminder => 0x07#8
  | .cancelled => 0x08#8
  | .rejected => 0x09#8
  | .tooLate => 0x0A#8
  | .notFound => 0x0B#8

/-- The message kind byte of a down message and its body (R115). -/
def DownMsg.bytes : DownMsg → List Byte
  | .display side seconds text => 0x01#8 :: DownSide.code side :: byteOf seconds :: byteOf text.length :: text
  | .orderStatus side number status detail total last =>
    [0x02#8, Side.code side, byteOf number, byteOf (number / 256), NoticeStatus.code status, byteOf detail]
      ++ lowBytes 4 total ++ [byteOf last]
  | .chime side pattern => [0x03#8, DownSide.code side, byteOf pattern]
  | .bayConfig left right => [0x04#8, byteOf (left.toNat + 2 * right.toNat)]
  | .exciter carrier channel => [0x05#8, byteOf carrier.toNat, byteOf channel]

/-- The DOWN frame (R85, R115). -/
def downBytes (f : DownFrame) : List Byte := withCrc ([byteOf f.address, 0x02#8, byteOf f.toggle] ++ DownMsg.bytes f.msg)

/-- The POLL frame (R85, R104). -/
def pollBytes (p : Poll) : List Byte := withCrc [byteOf p.address.val, 0x03#8, byteOf p.ack]

/-- What the part puts on the pair in a cycle before its reply window: the AUDIO frame, the DOWN frame if there is one, and the
POLL frame, with one flag before, between and after them (R82, R88). -/
def cycleBits (audio : AudioFrame) (down : Option DownFrame) (poll : Poll) : List Bool :=
  flag ++ frameBits (audioBytes audio) ++ flag
    ++ (match down with
        | none => []
        | some d => frameBits (downBytes d) ++ flag)
    ++ frameBits (pollBytes poll) ++ flag

/-! ### The reply window -/

/-- The most bit times of a reply window: 250 µs at 0.25 µs a bit (R81, R90). -/
def windowBits : Nat := 1000

/-- The bit times within which the first data bit of a reply must arrive: 50 µs (R87). -/
def firstDataBits : Nat := 200

/-- The number of data bits at which a 69th byte has arrived (R87). -/
def overlengthBits : Nat := 552

/-- How reception of a reply came to its end (R87): no data bit within 50 µs; an abort run or the end of the window; a 69th
byte; or a closing flag, with the data bits before it. -/
inductive Reception where
  | nothing
  | aborted
  | overlength
  | closed (data : List Bool)
  deriving DecidableEq, Repr

/-- Where the receiver stands in a reply window (R82, R83, R86). `wait`: no flag has been read; `run` counts the ones since the
last zero, and is none before a zero and after an eighth one. `read`: a flag has been read; `start` is the bit time after the
last flag, `ones` the run of ones just read, and `data` the bits since that flag without inserted zeros, newest first. The zero
and the first six ones of a flag that may be arriving are among them until the flag is complete; `own` says that the zero before
the run of ones is among them, as neither a flag's nor an inserted zero is. -/
inductive BitPhase where
  | wait (run : Option Nat)
  | read (start ones : Nat) (own : Bool) (data : List Bool)
  deriving DecidableEq, Repr

/-- Reception that ends at an abort run or at the end of the window: OVERLENGTH if a 69th byte had arrived before (R87). The first six
ones of the run, and the bits at the window's end that may begin a flag, count as data toward it (log 21). -/
def openEnded (start : Nat) (data : List Bool) : Reception :=
  if data = [] ∨ firstDataBits ≤ start then .nothing
  else if overlengthBits ≤ data.length then .overlength else .aborted

/-- Reception that ends at a closing flag: OVERLENGTH if a 69th byte had arrived before (R87). The flag's own bits are no data and do not
count toward it (log 21). -/
def closedBy (start : Nat) (data : List Bool) : Reception :=
  if firstDataBits ≤ start then .nothing
  else if overlengthBits ≤ data.length then .overlength else .closed data

/-- One bit while no flag has been read (R82). -/
def waitBit (i : Nat) (run : Option Nat) : Bool → BitPhase
  | false => if run = some 7 then .read (i + 1) 0 false [] else .wait (some 0)
  | true =>
    match run with
    | none => .wait none
    | some k => if k = 7 then .wait none else .wait (some (k + 1))

/-- How many of the last bits held may be the first bits of a flag that is arriving: the run of ones, up to six of them, and the
zero before it where that is among the bits held (R82, R87). -/
def flagBits (ones : Nat) (own : Bool) : Nat := min ones 6 + own.toNat

/-- The receiver over the bits of a window, `i` being the bit time of the first (R82, R83, R86, R87). At the window's end no data
bit has arrived where all that follows the last flag may be the beginning of a further one (log 21). After six ones a zero is an
inserted zero; a seventh one and then a zero make a flag, which is idle if no data bit stands before it and closes the reply
otherwise; an eighth one aborts a reply that has begun, with a data bit before the last six ones, and is part of the wait
otherwise. -/
def receive : Nat → BitPhase → List Bool → Reception
  | _, .wait _, [] => .nothing
  | _, .read start ones own data, [] => if data.drop (flagBits ones own) = [] then .nothing else openEnded start data
  | i, .wait run, b :: rest => receive (i + 1) (waitBit i run b) rest
  | i, .read start ones own data, true :: rest =>
    if ones = 7 then
      if data.drop 6 = [] then receive (i + 1) (.wait none) rest else openEnded start data
    else if ones = 6 then receive (i + 1) (.read start 7 own data) rest
    else receive (i + 1) (.read start (ones + 1) own (true :: data)) rest
  | i, .read start ones own data, false :: rest =>
    if ones = 7 then
      let reply := data.drop (flagBits ones own)
      if reply = [] then receive (i + 1) (.read (i + 1) 0 false []) rest else closedBy start reply.reverse
    else if ones = 6 then receive (i + 1) (.read start 0 false data) rest
    else receive (i + 1) (.read start 0 true (false :: data)) rest

/-- Data bits cut into bytes; the last may be a part of a byte. -/
def bytesOf : List Bool → List Byte
  | a :: b :: c :: d :: e :: f :: g :: h :: rest => bitsByte [a, b, c, d, e, f, g, h] :: bytesOf rest
  | _ => []

/-- R87: the outcome of a reply window in which `address` was polled, with the reply's bytes where it closed whole. -/
def windowOutcome (address : Nat) (bits : List Bool) : WindowOutcome × List Byte :=
  match receive 0 (.wait none) (bits.take windowBits) with
  | .nothing => (.noReply, [])
  | .aborted => (.abort, [])
  | .overlength => (.overlength, [])
  | .closed data =>
    let bytes := bytesOf data
    if data.length % 8 ≠ 0 ∨ bytes.length < 4 ∨ crcMatches bytes = false then (.crc, [])
    else if (bytes.headD 0).toNat = address then (.good, bytes)
    else (.wrongAddress, [])

end Sys2Proof.Machine
end

