-- ==== Sys2Proof/Machine/Items.lean ====
section
/-! DEFINITION. The body of a report: the items that its rule lists, in the order listed, and their bytes (R198). -/

namespace Sys2Proof.Machine

/-- An item that a report has in some cases only. -/
def Item.orAbsent (name : ItemName) : Option Item → Item
  | none => .absent name
  | some i => i

/-- The item's name. -/
def Item.name : Item → ItemName
  | .number name _ => name
  | .named name _ => name
  | .absent name => name

/-- A flag or a level. -/
def Item.flag (name : ItemName) (b : Bool) : Item := .named name b.toNat

/-- The label of a set of flags. -/
def flagsLabel : List Bool → Nat
  | [] => 0
  | b :: rest => b.toNat + 2 * flagsLabel rest

/-- A bay of a post: field, post and side. -/
def bayItems (field : Nr) (post : Nat) (side : Side) : List Item :=
  [.number .field field.toNat, .number .address post, .named .side side.ctorIdx]

/-- The operation of an OUTPUT cue with its times (R5). -/
def OutputOp.items (op : OutputOp) : List Item :=
  .named .actionOperation op.ctorIdx :: match op with
    | .pulse delay width => [.number .actionTime delay, .number .actionTime width]
    | .blink halfPeriod => [.number .actionTime halfPeriod]
    | _ => []

/-- The line of an OUTPUT cue (R5). -/
def LineName.label : LineName → Nat
  | .cueDriven line => line.ctorIdx
  | .hold => 6

/-- The action of a cue with its parameters, in the order of R5's table (log 42). -/
def CueAction.items (a : CueAction) : List Item :=
  .named .action a.ctorIdx :: match a with
    | .output line op => .named .actionLine (LineName.label line) :: OutputOp.items op
    | .mark code => [.number .actionCode code]
    | .intermissionBegin chime => [.number .actionChime chime]
    | .announce chime priority => [.number .actionChime chime, .number .actionPriority priority]
    | _ => []

/-- What has come to an announcement: the phase or the mark ENDED, and with ENDED the reason (R78). -/
def AnnMark.items : AnnMark → List Item
  | .phase p => [.named .phase p.ctorIdx, .absent .reason]
  | .ended reason => [.named .phase 5, .named .reason reason.ctorIdx]

/-- What a POST_STATE report tells of a post or the exciter (R111). -/
def PostDetail.items : PostDetail → List Item
  | .post speaker keypad left right =>
    [.flag .speakerFault speaker, .flag .keypadFault keypad, .named .leftPresence left.ctorIdx, .named .rightPresence right.ctorIdx]
  | .exciter carrier powerLow => [.flag .carrier carrier, .flag .power powerLow]

/-- The source of a down message, and the order's number for an ORDER message (R121). -/
def DownSource.items (source : DownSource) : List Item :=
  [.named .messageSource source.ctorIdx, match source with
    | .host => .absent .orderNumber
    | .order number => .number .orderNumber number]

/-- A reflection record (R132). -/
def Reflection.items (r : Reflection) : List Item :=
  [.number .tap r.tap, .named .reflectionKind r.kind.ctorIdx, .number .magnitude r.magnitude, .number .distance r.distance,
   .orAbsent .nearestPost (r.nearest.map (.number .nearestPost))]

/-- The flags of a pass (R143). -/
def PassFlags.item (f : PassFlags) : Item :=
  .named .passFlags (flagsLabel [f.balk, f.tailgate, f.wrongWay, f.unpaid, f.clamped])

/-- The admission that a pass took (R143). -/
def PassAdmission.items (a : PassAdmission) : List Item :=
  [.number .admissionId a.id, .number .field a.field.toNat, .named .vehicleClass a.cls.ctorIdx, .number .occupants a.occupants]

/-- The lines of an order (R169). How their count shows is open (log 10). -/
def linesItems (lines : List OrderLine) : List Item :=
  .named .lineCount lines.length :: lines.flatMap fun l => [.number .itemCode l.code, .number .quantity l.quantity]

/-- The items of a report after its report flags byte, in the order in which its rule lists them (R198). STARTED's one item is a
byte of R207's. -/
def Report.items : Report → List Item
  | .started _ => []
  | .showState screen previous new position cause =>
    [.number .screen screen.toNat, .named .previousState previous.ctorIdx, .named .newState new.ctorIdx, .number .position position,
     .named .cause cause.ctorIdx]
  | .cueFired screen number position action outcome =>
    [.number .screen screen.toNat, .number .cueNumber number, .number .position position] ++ CueAction.items action
      ++ [.orAbsent .outcome (outcome.map fun o => .named .outcome o.ctorIdx)]
  | .holdBegan screen number position inbound threshold =>
    [.number .screen screen.toNat, .number .cueNumber number, .number .position position, .number .inboundCount inbound,
     .number .holdThreshold threshold]
  | .holdEnded screen reason overrun position =>
    [.number .screen screen.toNat, .named .reason reason.ctorIdx, .number .overrunCount overrun, .number .position position]
  | .announceState id kind pattern targets priority origin mark =>
    [.number .announcementId id, .named .announcementKind kind.ctorIdx, .number .pattern pattern,
     .named .targets (flagsLabel (Nr.all.map targets.get)), .number .priority priority, .named .origin origin.ctorIdx] ++ mark.items
  | .announceDropped origin field pattern priority =>
    [.named .origin origin.ctorIdx, .number .field field.toNat, .number .pattern pattern, .number .priority priority]
  | .lineState field previous new cause =>
    [.number .field field.toNat, .named .previousState previous.ctorIdx, .named .newState new.ctorIdx, .named .cause cause.ctorIdx]
  | .postState field address previous new cause detail =>
    [.number .field field.toNat, .number .address address, .named .previousState previous.ctorIdx, .named .newState new.ctorIdx,
     .named .cause cause.ctorIdx] ++ detail.items
  | .postCall field address side call => bayItems field address side ++ [.named .callKind call.ctorIdx]
  | .downFailed field address number kind source reason =>
    [.number .field field.toNat, .number .address address, .number .messageNumber number, .named .messageKind kind.ctorIdx]
      ++ source.items ++ [.named .reason reason.ctorIdx]
  | .surveyDone field outcome cause velocity threshold records =>
    [.number .field field.toNat, .named .outcome outcome.ctorIdx, .named .cause cause.ctorIdx, .number .velocity velocity,
     .number .surveyThreshold threshold, .number .recordCount records.length] ++ records.flatMap Reflection.items
  | .pass lane direction flags admission site =>
    [.number .lane lane.toNat, .named .direction direction.ctorIdx, flags.item]
      ++ (match admission with
        | none => [.absent .admission]
        | some a => a.items)
      ++ [.number .siteCount site]
  | .admitExpired lane id field cls occupants waited =>
    [.number .lane lane.toNat, .number .admissionId id, .number .field field.toNat, .named .vehicleClass cls.ctorIdx,
     .number .occupants occupants, .number .waited waited]
  | .inboundExpired field id reason waited count =>
    [.number .field field.toNat, .number .admissionId id, .named .reason reason.ctorIdx, .number .waited waited,
     .number .inboundCount count]
  | .orderNew number field post side mode lines total estimate work =>
    .number .orderNumber number :: bayItems field post side ++ .named .mode mode.ctorIdx :: linesItems lines
      ++ [.number .total total, .number .estimate estimate] ++ Nr.all.map fun station => .number .work (work.get station)
  | .orderEnded number field post side mode state reason booth =>
    .number .orderNumber number :: bayItems field post side
      ++ [.named .mode mode.ctorIdx, .named .state state.ctorIdx, .named .reason reason.ctorIdx,
        .orAbsent .boothReason (booth.map fun b => .named .boothReason b.ctorIdx)]
  | .orderStale number field post side mode window seconds =>
    .number .orderNumber number :: bayItems field post side
      ++ [.named .mode mode.ctorIdx, .orAbsent .window (window.map fun w => .number .window w.toNat), .number .seconds seconds]
  | .orderBayEmpty number field post side state mode =>
    .number .orderNumber number :: bayItems field post side ++ [.named .state state.ctorIdx, .named .mode mode.ctorIdx]
  | .condition number place level latch =>
    [.number .condition number, .number .place place, .flag .level level, .flag .latch latch]

/-- The bytes that the range of an item's numbers asks for (R5, R16, R116, R130, R131, R145, R155, R169 and others); one where the
manual gives no range. -/
def ItemName.leastBytes : ItemName → Nat
  | .position => 3
  | .actionTime => 2
  | .messageNumber => 2
  | .orderNumber => 2
  | .tap => 2
  | .distance => 2
  | .admissionId => 2
  | .siteCount => 4
  | .waited => 2
  | .total => 3
  | .estimate => 4
  | .work => 3
  | .seconds => 2
  | _ => 1

/-- The bytes of an item in a report of a kind: a number stands low byte first (R194), in the bytes that its range asks for or more;
the bytes of a named value and of an item that is not there are open (log 10). -/
def Item.bytes (kind : Byte) : Item → List Byte
  | .number name value => lowBytes (name.leastBytes + Config.spareBytes kind name) value
  | .named name label => Config.codeBytes kind name label
  | .absent name => Config.absentBytes kind name

end Sys2Proof.Machine
end

