-- ==== Sys2Proof/Machine/Operands.lean ====
section
/-! DEFINITION. The value checks of requests: the ranges that the settings tables and the request rules give. -/

namespace Sys2Proof.Machine

/-- A value within a range that includes both ends (00_scope.md section 4). -/
def within (lo hi v : Nat) : Bool := decide (lo ≤ v) && decide (v ≤ hi)

/-- The settings table of R3. -/
def ScreenSettings.valid (t : ScreenSettings) : Bool :=
  (t.frameRate == 24 || t.frameRate == 25 || t.frameRate == 30 || t.frameRate == 48)
    && within 100 2000 t.stallTime && within 0 64 t.holdThreshold && within 10 900 t.maxHold && within 0 8 t.holdChime
    && within 0 1800 t.orderLead

/-- The parameters of an action (R5). -/
def CueAction.valid : CueAction → Bool
  | .output .hold _ => false
  | .output (.cueDriven _) (.pulse delay width) => within 0 10000 delay && within 1 10000 width
  | .output (.cueDriven _) (.blink halfPeriod) => within 50 5000 halfPeriod
  | .output (.cueDriven _) _ => true
  | .mark code => within 0 255 code
  | .intermissionBegin chime => within 0 8 chime
  | .announce chime priority => within 1 8 chime && within 1 3 priority
  | _ => true

/-- The largest show position (R2). -/
def maxPosition : Nat := 16777215

/-- A cue's fields (R5), but for its number's being in use. -/
def CueSpec.valid (c : CueSpec) : Bool := within 1 255 c.number && within 0 maxPosition c.position && CueAction.valid c.action

/-- The cues of one request carry distinct numbers, none of them in use (R5). -/
def freshNumbers (used : List Nat) : List Nat → Bool
  | [] => true
  | n :: rest => !used.contains n && freshNumbers (n :: used) rest

/-- The settings table of R45. -/
def AudioSettings.valid (a : AudioSettings) : Bool :=
  within 1 4 a.route && within 0 4096 a.trim && within 0 400 a.delay && within 0 4096 a.duckDepth && within 1 250 a.rampDown
    && within 1 250 a.rampUp && within 0 4096 a.annGain

/-- The values of ANNOUNCE (R65). -/
def announceValid (kind : AnnKind) (pattern : Nat) (targets : List Nat) (priority maxDuration : Nat) : Bool :=
  (match kind with
    | .chime => within 1 8 pattern
    | .live => within 0 8 pattern)
    && !targets.isEmpty && targets.all (within 1 4) && within 1 3 priority && within 0 120 maxDuration

/-- The values of CHIME_DEFINE (R79). -/
def chimeValid (pattern count : Nat) (notes : List Note) (level : Nat) : Bool :=
  within 1 8 pattern && within 1 4 count && notes.all (fun m => within 0 15 m.index && within 20 2000 m.duration)
    && within 0 4096 level

/-- The settings table of R99. -/
def LineSettings.valid (t : LineSettings) : Bool := within 50 99 t.velocity && within 1 127 t.threshold

/-- The message of POST_SEND by kind, side, text length and pattern (R115, R122 step 2). -/
def BoothMessage.valid : BoothMessage → Bool
  | .display side seconds textLength _ => !(side == .both) && within 0 255 seconds && within 0 32 textLength
  | .chime _ pattern => within 1 8 pattern
  | .other => false

/-- The text of a DISPLAY has the length it names (R122 step 1). -/
def BoothMessage.lengthFits : BoothMessage → Bool
  | .display _ _ textLength text => textLength == text.length
  | _ => true

/-- A cable position as POST_SET carries it: 0-30,000 dm, or FFFFh for absent (R123). -/
def positionValid (position : Nat) : Bool := within 0 30000 position || position == 0xFFFF

/-- The settings table of R137. -/
def LaneSettings.valid (t : LaneSettings) : Bool :=
  within 2 50 t.filterCount && within 10 600 t.blockedTime && within 10 600 t.expiry

/-- The settings table of R160. -/
def FieldSettings.valid (t : FieldSettings) : Bool :=
  within 0 192 t.limit && within 60 3600 t.seatTimeout && within 1 32 t.reopenMargin

/-- The values of a menu item (R164). -/
def MenuItem.valid (i : MenuItem) : Bool :=
  within 1 250 i.code && within 0 16 i.name.length && within 0 9999 i.price && within 1 4 i.station && within 0 1800 i.prep

/-- The values of STATION_SET (R167). -/
def stationsValid (staff : Four Nat) (limit : Nat) : Bool :=
  Nr.all.all (fun n => within 1 8 (staff.get n)) && within 60 3600 limit

end Sys2Proof.Machine
end

