-- ==== Sys2Proof/Machine/Ops.lean ====
section
/-! DEFINITION. The operations every block shares: the clock and timers, the making of a report (R200), the change of a condition
(R202), the request buffer and the turn of a request (R196), the transmitter (R197), the receiver (R195), and the replacement of
one field's or lane's part of the state. -/

namespace Sys2Proof.Machine

/-! ### Parts of the state -/

/-- Replace screen timeline `n`. -/
def State.setScreen (s : State) (n : Nr) (x : Screen) : State := { s with screens := s.screens.set n x }

/-- Replace booth output unit `n`. -/
def State.setOutput (s : State) (n : Nr) (x : OutputUnit) : State := { s with outputs := s.outputs.set n x }

/-- Replace field mixer `n`. -/
def State.setMixer (s : State) (n : Nr) (x : Mixer) : State := { s with mixers := s.mixers.set n x }

/-- Replace delay line `n`. -/
def State.setDelay (s : State) (n : Nr) (x : DelayLine) : State := { s with delays := s.delays.set n x }

/-- Replace field line controller `n`. -/
def State.setLine (s : State) (n : Nr) (x : LineCtl) : State := { s with lines := s.lines.set n x }

/-- Replace post table `n`. -/
def State.setPost (s : State) (n : Nr) (x : PostTable) : State := { s with posts := s.posts.set n x }

/-- Replace line survey unit `n`. -/
def State.setSurvey (s : State) (n : Nr) (x : SurveyUnit) : State := { s with surveys := s.surveys.set n x }

/-- Replace gate lane `n`. -/
def State.setLane (s : State) (n : Nr) (x : Lane) : State := { s with gate := { s.gate with lanes := s.gate.lanes.set n x } }

/-- Replace occupancy unit `n`. -/
def State.setField (s : State) (n : Nr) (x : Occupancy) : State := { s with fields := s.fields.set n x }

/-- Replace the announcement unit. -/
def State.setAnnounce (s : State) (x : AnnounceUnit) : State := { s with announce := x }

/-- Replace the order table. -/
def State.setOrders (s : State) (x : OrderTable) : State := { s with orders := x }

/-- Replace the control link. -/
def State.setLink (s : State) (x : Link) : State := { s with link := x }

/-! ### Time -/

/-- The clock at the moment of an expiry: never before it (log 3). -/
def State.at_ (s : State) (deadline : Nat) : State := { s with clock := max s.clock deadline }

/-- Milliseconds left on a timer, 0 when it is idle. -/
def State.left (s : State) : Option Nat → Nat
  | none => 0
  | some deadline => deadline - s.clock

/-- Whole seconds left on a timer, rounded up, 0 when it is idle. -/
def State.leftSeconds (s : State) (timer : Option Nat) : Nat := ceilDiv (s.left timer) 1000

/-- Whole seconds elapsed since a moment. -/
def State.elapsed (s : State) (moment : Nat) : Nat := (s.clock - moment) / 1000

/-! ### Counters that wrap to 1 -/

/-- The next value of a counter of 1 to `top` (R63, R116, R145, R170). -/
def afterCount (top c : Nat) : Nat := if c < top then c + 1 else 1

/-- The first value from `c` on that is not in use, counting from `top` to 1. `fuel` bounds the values passed over. -/
def freeCount (top : Nat) (used : List Nat) : Nat → Nat → Nat
  | 0, c => c
  | fuel + 1, c => if used.contains c then freeCount top used fuel (afterCount top c) else c

/-- The value a counter gives past every value in use (R63, R145, R170). -/
def takeCount (top : Nat) (used : List Nat) (c : Nat) : Nat := freeCount top used used.length c

/-! ### Reports and conditions -/

/-- The bit of a report source in the report enable set (R198). -/
def Source.bit : Source → Nat
  | .show => 0
  | .audio => 1
  | .announce => 2
  | .line => 3
  | .gate => 4
  | .field => 5
  | .order => 6
  | .condition => 7

/-- Whether a report source is in the report enable set (R198, R200). -/
def Link.enabled (l : Link) (source : Source) : Bool := l.enables.getLsbD (Source.bit source)

/-- The report queue's capacity (R200). -/
def reportRoom : Nat := 32

/-- R200: the making of a report of a source. -/
def Link.report (l : Link) (source : Source) (r : Report) : Link :=
  if Link.enabled l source then
    if reportRoom ≤ l.queue.length then { l with lost := true }
    else { l with queue := l.queue ++ [⟨l.lost, r⟩], lost := false }
  else l

/-- R200: the making of a report of a source. -/
def State.report (s : State) (source : Source) (r : Report) : State := s.setLink (Link.report s.link source r)

/-- One flag of a set of conditions replaced. -/
def setFlag (flags : BitVec 38) (k : Nat) (level : Bool) : BitVec 38 :=
  if level then flags ||| (1#38 <<< k) else flags &&& ~~~(1#38 <<< k)

/-- The sources that a CONDITION report needs beside CONDITION itself: AUDIO for conditions 0-8 (R202). -/
def Link.conditionReported (l : Link) (k : Nat) : Bool := decide (8 < k) || Link.enabled l .audio

/-- R202: the owner gives a condition a level. -/
def Link.setCond (l : Link) (c : Cond) (level : Bool) : Link :=
  let k := Cond.number c
  if Link.level l c = level then l
  else
    let moved := { l with live := setFlag l.live k level }
    if (if level then l.rise else l.fall).getLsbD k then
      let latched := { moved with latch := setFlag l.latch k true }
      if Link.conditionReported latched k then
        Link.report latched .condition (.condition k (Cond.scope c) level (latched.latch.getLsbD k))
      else latched
    else moved

/-- R202: the owner gives a condition a level. -/
def State.setCond (s : State) (c : Cond) (level : Bool) : State := s.setLink (Link.setCond s.link c level)

/-! ### The transmitter (R197) -/

/-- The replies that wait: in the request buffer, and among the busy replies. -/
def Link.replies (l : Link) : List Reply := l.requests.filterMap (·.reply)

/-- The reply made earliest. -/
def earliest : List Reply → Option Reply
  | [] => none
  | r :: rest =>
    match earliest rest with
    | none => some r
    | some q => if q.made < r.made then some q else some r

/-- R197: an idle transmitter takes the reply made earliest, or else the oldest report. It takes nothing more once the reply of an
accepted RESTART has been sent (R206). -/
def Link.kick (l : Link) : Link :=
  if l.tx = .idle ∧ l.restartDue = false then
    match earliest (Link.replies l), earliest l.busy with
    | some r, some b => if b.made < r.made then { l with tx := .busy b } else { l with tx := .reply r }
    | some r, none => { l with tx := .reply r }
    | none, some b => { l with tx := .busy b }
    | none, none =>
      match l.queue with
      | [] => l
      | q :: rest => { l with tx := .report q, queue := rest }
  else l

/-- R197: an idle transmitter takes the next frame. -/
def State.kick (s : State) : State := s.setLink (Link.kick s.link)

/-- The kind byte of a reply to a request kind: the kind plus 80h within one byte (R196). -/
def replyKind (kind : Byte) : Byte := kind + 0x80#8

/-- The result byte (section 12.3). -/
def Result.code : Result → Byte
  | .ok => 0x00#8
  | .unknownRequest => 0x01#8
  | .badLength => 0x02#8
  | .badValue => 0x03#8
  | .wrongState => 0x04#8
  | .full => 0x05#8
  | .notFound => 0x06#8
  | .tooLate => 0x07#8
  | .fieldFull => 0x08#8
  | .busy => 0x09#8

/-- Numbers as body bytes, each low byte first; with the byte before them a body holds at most 512 (R194, log 10). -/
def itemBytes (items : List (Nat × Nat)) : List Byte := (items.flatMap fun i => lowBytes i.1 i.2).take 511

/-- A set of conditions in five bytes: condition k in bit k mod 8 of byte k / 8 (R199, R203). -/
def conditionBytes (flags : BitVec 38) : List Byte := lowBytes 5 flags.toNat

/-- The body of an OK reply after its result byte: nothing where its kind lays none down, and the sets of R199 and R203 in their
bytes (R194, R196; log 10). -/
def ReplyBody.bytes : ReplyBody → List Byte
  | .empty => []
  | .masks sources rise fall => sources :: conditionBytes rise ++ conditionBytes fall
  | .conditions live latch => conditionBytes live ++ conditionBytes latch
  | body => itemBytes (Config.replyItems body)

/-- The frame of a reply: a result other than OK stands alone in the body (R196). -/
def Reply.frame (r : Reply) : List Byte :=
  linkFrame r.kind r.tag (Result.code r.result :: if r.result = .ok then ReplyBody.bytes r.body else [])

/-- The kind byte of a report (R198). -/
def Report.code : Report → Byte
  | .started _ => 0xE0#8
  | .showState .. => 0xE1#8
  | .cueFired .. => 0xE2#8
  | .holdBegan .. => 0xE3#8
  | .holdEnded .. => 0xE4#8
  | .condition .. => 0xE5#8
  | .announceState .. => 0xE6#8
  | .announceDropped .. => 0xE7#8
  | .lineState .. => 0xE8#8
  | .postState .. => 0xE9#8
  | .postCall .. => 0xEA#8
  | .downFailed .. => 0xEB#8
  | .surveyDone .. => 0xEC#8
  | .pass .. => 0xED#8
  | .admitExpired .. => 0xEE#8
  | .inboundExpired .. => 0xEF#8
  | .orderNew .. => 0xF0#8
  | .orderEnded .. => 0xF1#8
  | .orderStale .. => 0xF2#8
  | .orderBayEmpty .. => 0xF3#8

/-- The reason byte of STARTED (R207). -/
def StartReason.code : StartReason → Byte
  | .powerOn => 0x00#8
  | .restartAll => 0x01#8
  | .restartState => 0x02#8

/-- The body of a report after its report flags byte: STARTED's reason byte (R207), and of another its items in the order listed
(R198); with the byte before them a body holds at most 512 (R194, log 10). -/
def Report.bytes : Report → List Byte
  | .started reason => [StartReason.code reason]
  | r => (r.items.flatMap (Item.bytes (Report.code r))).take 511

/-- The frame of a report: tag 0, the report flags byte with the lost bit, the items (R194, R198, R207). -/
def QueuedReport.frame (q : QueuedReport) : List Byte :=
  linkFrame (Report.code q.report) 0#8 ((if q.lost then 0x01#8 else 0x00#8) :: Report.bytes q.report)

/-- The frame the transmitter is sending on TXD, if it is sending one (R197). -/
def txdFrame (s : State) : Option (List Byte) :=
  match s.link.tx with
  | .idle => none
  | .reply r => some (Reply.frame r)
  | .busy r => some (Reply.frame r)
  | .report q => some (QueuedReport.frame q)

/-- The bits the transmitter puts on TXD for that frame, its characters back to back (R193, R197). -/
def txdBits (s : State) : Option (List Bool) := (txdFrame s).map fun f => f.flatMap characterBits

/-! ### The request buffer (R196) -/

/-- The request buffer's capacity, and the busy replies' (R196). -/
def requestRoom : Nat := 4

/-- R196: a valid frame arrives. -/
def Link.arrive (l : Link) (kind tag : Byte) (body : Option (List Byte)) : Link :=
  if l.requests.length < requestRoom then { l with requests := l.requests ++ [⟨kind, tag, body, none⟩] }
  else if l.busy.length < requestRoom then
    { l with busy := l.busy ++ [⟨l.replyCount, replyKind kind, tag, .busy, .empty⟩], replyCount := l.replyCount + 1 }
  else { l with discarded := l.discarded + 1 }

/-- The oldest waiting request: the one to be taken next (R196). -/
def Link.waiting (l : Link) : Option Request := l.requests.find? fun q => q.reply.isNone

/-- The reply of the oldest waiting request put in its place in the buffer (R196). -/
def answerWaiting (result : Result) (body : ReplyBody) (made : Nat) : List Request → List Request
  | [] => []
  | q :: rest =>
    if q.reply.isNone then { q with reply := some ⟨made, replyKind q.kind, q.tag, result, body⟩ } :: rest
    else q :: answerWaiting result body made rest

/-- R196: the request in turn is answered. -/
def Link.answer (l : Link) (result : Result) (body : ReplyBody) : Link :=
  { l with requests := answerWaiting result body l.replyCount l.requests, replyCount := l.replyCount + 1 }

/-- Whether the link takes a request of this kind and tag now (R196, R206; log 2). -/
inductive Turn where
  /-- a restart is pending, the receiver is not listening, or another request is in turn -/
  | notNow
  /-- its frame arrives and finds the buffer full -/
  | turnedAway
  /-- it is the oldest waiting request -/
  | taken (l : Link)
  deriving DecidableEq, Repr

/-- The turn of a request (log 2): the oldest waiting request is taken if it bears the kind and tag; where none waits and the
receiver is in HUNT, the command stands for the arrival of the request's whole frame as well. -/
def Link.turn (l : Link) (kind tag : Byte) : Turn :=
  if l.restart.isSome then .notNow
  else
    match Link.waiting l with
    | some q => if q.kind = kind ∧ q.tag = tag then .taken l else .notNow
    | none =>
      if l.rx.state = .hunt then
        if l.requests.length < requestRoom then .taken (Link.arrive l kind tag none) else .turnedAway
      else .notNow

/-- What a request's owning block answers: a refusal, or the state after it with the body of the OK reply. -/
abbrev Answer := Except Result (State × ReplyBody)

/-- R196: the outcome of a request put into its reply. A refused request changes nothing. -/
def State.answered (s : State) : Answer → State
  | .error e => s.setLink (Link.answer s.link e .empty)
  | .ok (t, body) => t.setLink (Link.answer t.link .ok body)

/-- R196: a request is taken in its turn and answered: BAD_LENGTH, then BAD_VALUE for a coded byte that is none of its codes, then
what the owning block answers. -/
def State.serve (s : State) (kind : Byte) (r : Req) (lengthFits : Bool) (act : State → Answer) : State :=
  match Link.turn s.link kind r.tag with
  | .notNow => s
  | .turnedAway => s.setLink (Link.arrive s.link kind r.tag none)
  | .taken l =>
    let t := s.setLink l
    t.answered
      (if r.form = .wrongLength ∨ lengthFits = false then .error .badLength
       else if r.form = .unknownCode then .error .badValue
       else act t)

/-- The bytes of the set that a selector of REPORT_MASK asks for (R199). -/
def maskSetBytes (selector : Byte) : Option Nat :=
  if selector = 0x00#8 then some 1 else if selector = 0x01#8 ∨ selector = 0x02#8 then some 5 else none

/-- R199: how the body of a REPORT_MASK reads. One with an unknown selector has a length that some selector asks for, or the wrong
one (log 1). -/
def maskForm : List Byte → Form
  | selector :: operation :: set =>
    match maskSetBytes selector with
    | some size => if set.length ≠ size then .wrongLength else if operation.toNat ≤ 2 then .fits else .unknownCode
    | none => if set.length = 1 ∨ set.length = 5 then .unknownCode else .wrongLength
  | _ => .wrongLength

/-- R206: how the body of a RESTART reads. -/
def scopeForm : List Byte → Form
  | [scope] => if scope = 0x01#8 ∨ scope = 0x02#8 then .fits else .unknownCode
  | _ => .wrongLength

/-- How the bytes of a body read, for the kinds whose rules lay their bytes out: RESTART, REPORT_MASK, and those without a body
(R199, R203, R205, R206). -/
def bodyForm (kind : Byte) (body : List Byte) : Form :=
  if kind = 0x02#8 then scopeForm body
  else if kind = 0x03#8 then maskForm body
  else if body = [] then .fits else .wrongLength

/-- How the request in turn reads against a command whose body these bytes spell: as its own bytes do where it was received, and by
the command's form where its command brought it; none where its bytes spell another command (logs 1, 2). -/
def State.reading (s : State) (kind : Byte) (spelled : List Byte) (form : Form) : Option Form :=
  match (Link.waiting s.link).bind (·.body) with
  | none => some form
  | some body => if bodyForm kind body = .fits ∧ body ≠ spelled then none else some (bodyForm kind body)

/-- A request whose body these bytes spell is taken in its turn and answered (R196). Where the request in turn spells another
command, it is not this one's turn (log 2). -/
def State.serveSpelled (s : State) (kind : Byte) (r : Req) (spelled : List Byte) (act : State → Answer) : State :=
  match s.reading kind spelled r.form with
  | none => s
  | some form => s.serve kind { r with form := form } true act

/-- The request kinds of section 12.4. -/
def knownKinds : List Byte :=
  [0x01#8, 0x02#8, 0x03#8, 0x04#8, 0x05#8, 0x06#8,
   0x10#8, 0x11#8, 0x12#8, 0x13#8, 0x14#8, 0x15#8, 0x16#8, 0x17#8, 0x18#8, 0x19#8,
   0x20#8, 0x21#8, 0x22#8, 0x28#8, 0x29#8, 0x30#8, 0x31#8, 0x32#8, 0x38#8, 0x39#8, 0x3A#8, 0x3B#8]
    ++ [0x3C#8, 0x3D#8, 0x3E#8, 0x3F#8, 0x40#8, 0x41#8, 0x42#8, 0x43#8, 0x44#8, 0x48#8, 0x49#8,
   0x50#8, 0x51#8, 0x52#8, 0x53#8, 0x54#8, 0x55#8, 0x56#8, 0x57#8, 0x58#8]

/-- A field, screen, lane or window number as a request names it: BAD_VALUE outside 1-4. -/
def numbered (n : Nat) (act : Nr → Answer) : Answer :=
  match Nr.ofNat? n with
  | none => .error .badValue
  | some k => act k

/-! ### The receiver (R195) -/

/-- The receiver after a hunt: frames handed on, discards counted, the gap timer running in LENGTH and FRAME (R195). -/
def Link.hunted (l : Link) (clock : Nat) (h : Hunt) : Link :=
  let handed := h.frames.foldl (fun l f => Link.arrive l f.1 f.2.1 (some f.2.2)) l
  { handed with
    discarded := handed.discarded + BitVec.ofNat 32 h.discards
    rx := ⟨h.state, h.kept, if h.state = .hunt then none else some (clock + 50)⟩ }

/-- R195, R207: a byte is received. -/
def Link.byte (l : Link) (clock : Nat) (b : Byte) : Link :=
  match l.rx.state with
  | .startUp => l
  | .hunt => Link.hunted l clock (huntAll [b])
  | _ => Link.hunted l clock (huntAll (marker :: l.rx.kept ++ [b]))

/-- R195: the frame being received is discarded and the bytes after its marker are hunted through. -/
def Link.discardFrame (l : Link) (clock : Nat) : Link :=
  Link.hunted { l with discarded := l.discarded + 1 } clock (huntAll l.rx.kept)

/-- How many bytes after the marker the frame being received has, from its length bytes (R194). -/
def frameSize : List Byte → Nat
  | lo :: hi :: _ => fromLow lo hi + 4
  | _ => 0

end Sys2Proof.Machine
end

