-- ==== Sys2Proof/Machine/Audio.lean ====
section
/-! DEFINITION. Program intake and the field mixer (chapter 3): presence, the delay line, the fade and duck gains, the output
sample, the sine of a chime note (R72), and the meanings of PROG_ARRIVAL, AUDIO_SET and AUDIO_STATUS. -/

namespace Sys2Proof.Machine

/-! ### Arithmetic of a sample (section 3.7) -/

/-- A product divided by 4096 and rounded away from zero at halves (section 3.7). -/
def roundAway (x : Int) : Int :=
  if x < 0 then -(((x.natAbs + 2048) / 4096 : Nat) : Int) else (((x.natAbs + 2048) / 4096 : Nat) : Int)

/-- A product of two gains, rounded (R58). -/
def gainProduct (a b : Nat) : Nat := (a * b + 2048) / 4096

/-- R58: the program gain of a block from T, G_d and g_f. -/
def programGain (trim duck fade : Nat) : Nat := gainProduct (gainProduct trim duck) fade

/-- R59: one term of the sum. -/
def term (sample : Int) (gain : Nat) : Int := roundAway (sample * gain)

/-- R60: the exact sum clamped to the sample range. -/
def clampSample (x : Int) : Int := if 32767 < x then 32767 else if x < -32768 then -32768 else x

/-- R60: whether the sum is clamped. -/
def isClamped (x : Int) : Bool := decide (32767 < x) || decide (x < -32768)

/-! ### The sine of a note (R72) -/

/-- The fixed-point scale of the sine. -/
def sineScale : Nat := 2 ^ 100

/-- The whole part of π times the scale. -/
def scaledPi : Nat := 3982441812995697363688351113952

/-- The factor that `j` further terms of the sine series leave of `x`, from the square of `x`. -/
def sineFactor (square : Nat) : Nat → Nat → Nat
  | 0, acc => acc
  | j + 1, acc => sineFactor square j (sineScale - square * acc / sineScale / ((2 * j + 2) * (2 * j + 3)))

/-- The sine of π·n/24000 in fixed point, for n of 0 to 12,000. -/
def quarterSine (n : Nat) : Nat :=
  let x := scaledPi * n / 24000
  x * sineFactor (x * x / sineScale) 17 sineScale / sineScale

/-- 32767 times the sine of π·n/24000, rounded to the nearest whole number, halves upward, for n of 0 to 24,000. The one exact
half is at sines of 1/2; the small addend keeps it on its side of the series' error (log 17). -/
def halfWave (n : Nat) : Nat :=
  (32767 * quarterSine (if 12000 < n then 24000 - n else n) + sineScale / 2 + 2 ^ 60) / sineScale

/-- R72: 32767 × sin(2π·f·k/48000), rounded with halves away from zero. -/
def sineSample (f k : Nat) : Int :=
  let n := f * k % 48000
  if n < 24000 then (halfWave n : Int) else -(halfWave (n - 24000) : Int)

/-- The frequency of a note index in Hz; 0 for the rest (R72). -/
def noteFrequency : Nat → Nat
  | 1 => 262
  | 2 => 294
  | 3 => 330
  | 4 => 349
  | 5 => 392
  | 6 => 440
  | 7 => 494
  | 8 => 523
  | 9 => 587
  | 10 => 659
  | 11 => 698
  | 12 => 784
  | 13 => 880
  | 14 => 988
  | 15 => 1047
  | _ => 0

/-- The chime term C of a voice at this sample instant (R59, R72). -/
def Voice.term : Voice → Int
  | .sounding (note :: _) level k =>
    if note.index = 0 then 0 else Machine.term (sineSample (noteFrequency note.index) k) level
  | _ => 0

/-- The voice one sample instant on (R72). -/
def Voice.advance : Voice → Voice
  | .sounding notes level k => .sounding notes level (k + 1)
  | v => v

/-! ### The delay line (section 3.4) -/

/-- The slots of a delay line (section 3.4). -/
def ringSize : Nat := 19296

/-- A slot's frame put in its place among the fresh slots, which stand in rising order. -/
def putSlot (k : Nat) (f : Frame) : List (Nat × Frame) → List (Nat × Frame)
  | [] => [(k, f)]
  | (j, g) :: rest =>
    if k < j then (k, f) :: (j, g) :: rest
    else if k = j then (k, f) :: rest
    else (j, g) :: putSlot k f rest

/-- A slot's fresh mark cleared. -/
def clearSlot (k : Nat) : List (Nat × Frame) → List (Nat × Frame)
  | [] => []
  | (j, g) :: rest => if k = j then rest else (j, g) :: clearSlot k rest

/-- The frame of a slot, if it is fresh. -/
def findSlot (k : Nat) : List (Nat × Frame) → Option Frame
  | [] => none
  | (j, g) :: rest => if k = j then some g else findSlot k rest

/-- R47: an arrival stored in the open slot. -/
def DelayLine.store (d : DelayLine) (f : Frame) : DelayLine := { d with slots := putSlot d.writeIndex f d.slots }

/-- The slot that lies `delay` slots behind the write index (R48). -/
def DelayLine.behind (d : DelayLine) (delay : Nat) : Nat := (d.writeIndex + ringSize - delay % ringSize) % ringSize

/-- R48: the frame the read side takes; silence from a slot that is not fresh. -/
def DelayLine.read (d : DelayLine) (delay : Nat) : Frame := (findSlot (d.behind delay) d.slots).getD ⟨0, 0⟩

/-- R47, R48: the slot read is no longer fresh; the write index advances, and the slot it now points at is not fresh. -/
def DelayLine.advance (d : DelayLine) (delay : Nat) : DelayLine :=
  let next := (d.writeIndex + 1) % ringSize
  { writeIndex := next, slots := clearSlot next (clearSlot (d.behind delay) d.slots) }

/-! ### The duck gain (section 3.6) -/

/-- R55: a grant of an announcement. -/
def Mixer.grant (m : Mixer) : Mixer := { m with duck := .ducking }

/-- R56: the end of an announcement. -/
def Mixer.release (m : Mixer) : Mixer := { m with duck := if m.duck = .full then .full else .releasing }

/-- R54: a ramp's step, from Ld and the ramp's number of blocks. -/
def rampStep (depth blocks : Nat) : Nat := ceilDiv (4096 - depth) blocks

/-- The gain one step lower, not below the depth; a step of 0 completes the move (R54). -/
def stepDown (depth blocks gain : Nat) : Nat :=
  if rampStep depth blocks = 0 then depth else max depth (gain - rampStep depth blocks)

/-- The gain one step higher, not above the target; a step of 0 completes the move (R54, R57). -/
def stepUp (depth blocks target gain : Nat) : Nat :=
  if rampStep depth blocks = 0 then target else min target (gain + rampStep depth blocks)

/-- R54, R57: the duck step, from the depth and ramps in use, with whether a DUCKED notice is sent. -/
def Mixer.duckStep (m : Mixer) : Mixer × Bool :=
  let u := m.inUse
  match m.duck with
  | .full => ({ m with duckGain := 4096 }, false)
  | .ducking =>
    let g := stepDown u.duckDepth u.rampDown m.duckGain
    if g = u.duckDepth then ({ m with duckGain := g, duck := .ducked }, true) else ({ m with duckGain := g }, false)
  | .ducked =>
    if u.duckDepth < m.duckGain then ({ m with duckGain := stepDown u.duckDepth u.rampDown m.duckGain }, false)
    else if m.duckGain < u.duckDepth then
      ({ m with duckGain := stepUp u.duckDepth u.rampUp u.duckDepth m.duckGain }, false)
    else (m, false)
  | .releasing =>
    let g := stepUp u.duckDepth u.rampUp 4096 m.duckGain
    if g = 4096 then ({ m with duckGain := g, duck := .full }, false) else ({ m with duckGain := g }, false)

/-! ### The fade gain and a pending change (sections 3.4 and 3.5) -/

/-- R42: PROGRAM_PRESENT of a field takes the presence of its applied input. -/
def State.showPresence (s : State) (n : Nr) : State := s.setCond (.programPresent n) (programPresent s n)

/-- R50, R51: the pending change, if there is one, is applied at a block boundary. -/
def applyChange (n : Nr) (s : State) : State :=
  let m := s.mixers.get n
  match m.change with
  | none => s
  | some c =>
    let t := s.setMixer n { m with appliedD := c.target, change := none }
    if c.route then
      let u := (t.setDelay n { t.delays.get n with slots := [] }).setMixer n
        { t.mixers.get n with appliedRoute := (Nr.ofNat? m.settings.route).getD m.appliedRoute }
      u.showPresence n
    else t

/-- R49: a pending change is applied without a fade at a boundary with field audio OFF. -/
def applyUnfaded (n : Nr) (s : State) : State :=
  if (s.mixers.get n).settings.fieldAudio then s else applyChange n s

/-- R51: the fade step. -/
def fadeStep (n : Nr) (s : State) : State :=
  let m := s.mixers.get n
  match m.fade with
  | .fadingIn =>
    let g := min 4096 (m.fadeGain + 1024)
    s.setMixer n { m with fadeGain := g, fade := if g = 4096 then .opened else .fadingIn }
  | .fadingOut =>
    let g := m.fadeGain - 1024
    if g = 0 then
      let after := if m.change.isSome ∧ m.settings.fieldAudio = true then FadeState.fadingIn else FadeState.silent
      let t := applyChange n (s.setMixer n { m with fadeGain := 0 })
      t.setMixer n { t.mixers.get n with fade := after }
    else s.setMixer n { m with fadeGain := g }
  | _ => s

/-- R52: the fade as a change of field audio finds it, with no change of delay or route to carry. -/
def FadeState.switched (f : FadeState) (isOn : Bool) : FadeState :=
  if isOn then
    match f with
    | .silent => .fadingIn
    | .fadingOut => .fadingIn
    | other => other
  else
    match f with
    | .fadingIn => .fadingOut
    | .opened => .fadingOut
    | other => other

/-- R45, R49, R52, R53: the mixer with new settings. -/
def Mixer.set (m : Mixer) (a : AudioSettings) : Mixer :=
  let differs := decide (a.delay * 48 ≠ m.appliedD) || decide (a.route ≠ m.appliedRoute.toNat)
  let change : PendingChange := { target := a.delay * 48, route := decide (a.route ≠ m.appliedRoute.toNat) }
  let base := { m with settings := a }
  if a.fieldAudio then
    if differs then { base with change := some change, fade := .fadingOut }
    else if m.change.isSome then { base with change := none, fade := .fadingIn }
    else if m.settings.fieldAudio then base
    else { base with fade := m.fade.switched true }
  else { base with change := if differs then some change else none, fade := m.fade.switched false }

/-! ### Requests -/

/-- AUDIO_SET (R45). -/
def audioSet (field : Nat) (a : AudioSettings) (s : State) : Answer :=
  numbered field fun n =>
    if AudioSettings.valid a then .ok (s.setMixer n (Mixer.set (s.mixers.get n) a), .empty) else .error .badValue

/-- AUDIO_STATUS (R46). -/
def audioStatus (field : Nat) (s : State) : Answer :=
  numbered field fun n =>
    let m := s.mixers.get n
    .ok (s, .audio { settings := m.settings, appliedD := m.appliedD, appliedRoute := m.appliedRoute, change := m.change,
                     fade := m.fade, fadeGain := m.fadeGain, duck := m.duck, duckGain := m.duckGain,
                     programPresent := State.level s (.programPresent n), clipped := State.level s (.clipped n),
                     progPresent := s.intake.progPresent, annPresent := s.intake.annPresent })

/-! ### Arrivals and sample instants -/

/-- The silence timer's run in sample instants (R42). -/
def silenceRun : Nat := 480

/-- R41, R47: an arrival on an input stored by every field whose applied route it is. -/
def storeArrival (input : Nr) (f : Frame) (s : State) : State :=
  Nr.all.foldl (fun t n => if (t.mixers.get n).appliedRoute = input then t.setDelay n ((t.delays.get n).store f) else t) s

/-- R42: PROGRAM_PRESENT of every field whose applied route is the input. -/
def showInput (input : Nr) (s : State) : State :=
  Nr.all.foldl (fun t n => if (t.mixers.get n).appliedRoute = input then t.showPresence n else t) s

/-- R41, R42: a sample frame arrives on PROGn. Its command is taken in every state, in START_UP of the link too (log 33). -/
def progArrives (input : Nr) (f : Frame) (s : State) : State :=
  let t := storeArrival input f s
  showInput input { t with intake := { t.intake with progPresent := t.intake.progPresent.set input true,
                                                     progSilence := t.intake.progSilence.set input (some silenceRun) } }

/-- The live sample of a sample instant (R43). -/
def Intake.live (i : Intake) : Int := if i.fresh then i.slot.toInt else 0

/-- R42, R43: the intake at a sample instant: the slot is taken, and the silence timers run. -/
def Intake.instant (i : Intake) : Intake :=
  { i with fresh := false, progSilence := i.progSilence.map (Option.map (· - 1)), annSilence := i.annSilence.map (· - 1) }

/-- R59, R60: the exact sum of one channel. -/
def Mixer.sum (m : Mixer) (p live chime : Int) : Int :=
  term p (programGain m.inUse.trim m.duckGain m.fadeGain) + term (if m.liveNoted then live else 0) m.inUse.annGain + chime

/-- R48, R59, R60: one field at a sample instant: the delay line is read and advances, the sample frame joins the block, and
CLIPPED rises at a clamp. -/
def fieldInstant (live : Int) (n : Nr) (s : State) : State :=
  let m := s.mixers.get n
  let d := s.delays.get n
  let voice := s.announce.voices.get n
  let p := d.read m.appliedD
  let l := m.sum p.left.toInt live voice.term
  let r := m.sum p.right.toInt live voice.term
  let hit := isClamped l || isClamped r
  let t := (s.setDelay n (d.advance m.appliedD)).setMixer n
    { m with block := m.block ++ [⟨clampSample l, clampSample r⟩], clamped := m.clamped || hit }
  let u := t.setAnnounce { t.announce with voices := t.announce.voices.set n voice.advance }
  if hit then u.setCond (.clipped n) true else u

/-! ### Meanings -/

/-- PROG_ARRIVAL (R41). -/
def execProgArrival (n : Nr) (frame : Frame) (s : State) : Host.Outcome State Fault Refusal := .next (progArrives n frame s).kick

/-- AUDIO_SET (R45). -/
def execAudioSet (r : Req) (field : Nat) (settings : AudioSettings) (s : State) : Host.Outcome State Fault Refusal :=
  .next (s.serve 0x28#8 r true (audioSet field settings)).kick

/-- AUDIO_STATUS (R46). -/
def execAudioStatus (r : Req) (field : Nat) (s : State) : Host.Outcome State Fault Refusal :=
  .next (s.serve 0x29#8 r true (audioStatus field)).kick

end Sys2Proof.Machine
end

