-- ==== Sys2Proof/Machine/Announce.lean ====
section
/-! DEFINITION. Announcements and chimes (chapter 4): the queue, the grant test with preemption, the phases, the endings, and the
meanings of ANNOUNCE, ANNOUNCE_END, CHIME_DEFINE, CHIME_NOTE_END, CHIME_VOICE_FINISHED, ANNOUNCE_DURATION_EXPIRY,
SOURCE_LOSS_EXPIRY, ANN_ARRIVAL and INPUT_SILENCE_EXPIRY. -/

namespace Sys2Proof.Machine

/-! ### Records and reports -/

/-- R78: an ANNOUNCE_STATE report of a record. -/
def State.reportAnn (s : State) (a : Ann) (mark : AnnMark) : State :=
  s.report .announce (.announceState a.id a.kind a.pattern a.targets a.priority a.origin mark)

/-- The fields of a set, in ascending order. -/
def fieldsOf (v : Four Bool) : List Nr := Nr.all.filter v.get

/-- Whether two sets of fields share a field. -/
def shareField (v w : Four Bool) : Bool := Nr.all.any fun n => v.get n && w.get n

/-- The ids of the queued and active records (R63). -/
def AnnounceUnit.ids (u : AnnounceUnit) : List Nat := u.queue.map (·.id) ++ u.active.map (·.id)

/-- The active record with this id replaced. -/
def AnnounceUnit.replace (u : AnnounceUnit) (a : Ann) : AnnounceUnit :=
  { u with active := u.active.map fun b => if b.id = a.id then a else b }

/-- The active record that holds the slot of field `n` (R67). -/
def AnnounceUnit.holder (u : AnnounceUnit) (n : Nr) : Option Ann := u.active.find? fun a => a.targets.get n

/-- The active records that stand in a record's way: those that hold a slot of its targets and, for a LIVE record, the one that
holds the live source, in order of grant (R68, R69). -/
def AnnounceUnit.blockers (u : AnnounceUnit) (a : Ann) : List Ann :=
  u.active.filter fun b => shareField a.targets b.targets || (a.kind == .live && b.kind == .live)

/-- R64: a record's place in the queue: after every record of equal or more urgent priority. -/
def enqueueAnn (a : Ann) : List Ann → List Ann
  | [] => [a]
  | b :: rest => if b.priority ≤ a.priority then b :: enqueueAnn a rest else a :: b :: rest

/-! ### Messages to the mixers -/

/-- Each field of a list has its mixer changed. -/
def changeMixers (f : Mixer → Mixer) (ns : List Nr) (s : State) : State :=
  ns.foldl (fun t n => t.setMixer n (f (t.mixers.get n))) s

/-- The chime voices of a set of fields stopped (R69, R77). -/
def stopVoices (v : Four Bool) (s : State) : State :=
  s.setAnnounce { s.announce with voices := .tabulate fun n => if v.get n then .idle else s.announce.voices.get n }

/-- The source-loss timer cancelled if the record was in LIVE (R69, R77). -/
def cancelLoss (a : Ann) (s : State) : State :=
  if a.phase = .live then s.setAnnounce { s.announce with sourceLoss := none } else s

/-- A record removed from the active set, which frees what it holds (R67, R69, R77). -/
def removeActive (a : Ann) (s : State) : State :=
  s.setAnnounce { s.announce with active := s.announce.active.filter fun b => b.id != a.id }

/-! ### Granting -/

/-- R68: a record is granted. -/
def grantAnn (a : Ann) (s : State) : State :=
  let b : Ann := { a with timer := some (s.clock + a.maxDuration * 1000), phase := .ducking, awaited := a.targets }
  let t := s.setAnnounce { s.announce with queue := s.announce.queue.filter fun q => q.id != a.id
                                           active := s.announce.active ++ [b] }
  (changeMixers Mixer.grant (fieldsOf a.targets) t).reportAnn b (.phase .ducking)

/-- R69: an active record is preempted by a priority-1 record with the given targets. -/
def preemptAnn (targets : Four Bool) (b : Ann) (s : State) : State :=
  let t := removeActive b (cancelLoss b (stopVoices b.targets s))
  let u := changeMixers Mixer.release ((fieldsOf b.targets).filter fun n => !targets.get n) t
  u.reportAnn b (.ended .preempted)

/-- R68, R69: the grant test visits one queued record. -/
def visitAnn (s : State) (a : Ann) : State :=
  let blockers := s.announce.blockers a
  if blockers = [] then grantAnn a s
  else if a.priority = 1 ∧ blockers.all (fun b => b.priority != 1) then
    grantAnn a (blockers.foldl (fun t b => preemptAnn a.targets b t) s)
  else s

/-- R68: the grant test. -/
def grantTest (s : State) : State := s.announce.queue.foldl visitAnn s

/-! ### Making announcements -/

/-- The queue's capacity (R64). -/
def annRoom : Nat := 16

/-- R63, R65, R66: a record is made, queued and reported, and the grant test follows. -/
def makeAnn (kind : AnnKind) (pattern : Nat) (targets : Four Bool) (priority maxDuration : Nat) (origin : Origin)
    (s : State) : State × Nat :=
  let u := s.announce
  let id := takeCount 255 u.ids u.nextId
  let a : Ann := { id := id, kind := kind, pattern := pattern, targets := targets, priority := priority,
                   maxDuration := maxDuration, origin := origin, phase := .queued, awaited := .all false, timer := none }
  let t := s.setAnnounce { u with queue := enqueueAnn a u.queue, nextId := afterCount 255 id }
  (grantTest (t.reportAnn a (.phase .queued)), id)

/-- One field as a set. -/
def onlyField (n : Nr) : Four Bool := .tabulate fun k => k == n

/-- R66: a screen timeline hands over a chime. -/
def timelineChime (n : Nr) (pattern priority : Nat) (origin : Origin) (s : State) : State :=
  if s.announce.queue.length < annRoom then (makeAnn .chime pattern (onlyField n) priority 30 origin s).1
  else s.report .announce (.announceDropped origin n pattern priority)

/-! ### Phases -/

/-- R71: a record enters CHIME, and the voices of its fields start. A voice copies its pattern (R72). -/
def enterChime (a : Ann) (s : State) : State :=
  let b := { a with phase := .chime }
  let p := (s.announce.patterns[a.pattern - 1]?).getD ⟨[], 0⟩
  let u := s.announce.replace b
  let t := s.setAnnounce { u with voices := .tabulate fun n => if a.targets.get n then .started p.notes p.level
                                                               else u.voices.get n }
  t.reportAnn b (.phase .chime)

/-- R73, R74: a record enters LIVE; the source-loss timer starts if ANN is ABSENT. -/
def enterLive (a : Ann) (s : State) : State :=
  let b := { a with phase := .live }
  let u := s.announce.replace b
  let t := s.setAnnounce { u with sourceLoss := if s.intake.annPresent then none else some (s.clock + 2000) }
  t.reportAnn b (.phase .live)

/-- R77: an active record is ended by RELEASING. -/
def releaseAnn (a : Ann) (reason : AnnReason) (s : State) : State :=
  let t := removeActive a (changeMixers Mixer.release (fieldsOf a.targets) (cancelLoss a (stopVoices a.targets s)))
  grantTest (t.reportAnn a (.ended reason))

/-- R70: the unit takes a DUCKED notice for a field. -/
def duckedNotice (n : Nr) (s : State) : State :=
  match s.announce.holder n with
  | none => s
  | some a =>
    if a.phase = .ducking then
      let b := { a with awaited := a.awaited.set n false }
      if (fieldsOf b.awaited).isEmpty then
        if a.kind = .chime ∨ a.pattern ≠ 0 then enterChime b s else enterLive b s
      else s.setAnnounce (s.announce.replace b)
    else s

/-- R44: whether the field's announcement is in its LIVE phase. -/
def isLive (s : State) (n : Nr) : Bool := s.announce.active.any fun a => a.phase == .live && a.targets.get n

/-- R72: the voice of a field begins its first note at a block boundary. -/
def beginVoice (n : Nr) (s : State) : State :=
  match s.announce.voices.get n with
  | .started notes level =>
    s.setAnnounce { s.announce with voices := s.announce.voices.set n (.sounding notes level 0) }
  | _ => s

/-- R71: the voice of field `n` has finished; when every target field of the record in CHIME has, it goes on. -/
def voiceFinished (n : Nr) (s : State) : State :=
  match s.announce.holder n with
  | none => s
  | some a =>
    if a.phase = .chime ∧ (fieldsOf a.targets).all (fun k => s.announce.voices.get k == .idle) then
      match a.kind with
      | .chime => releaseAnn a .complete s
      | .live => enterLive a s
    else s

/-- The sample instants that a note lasts (R72). -/
def noteRun (note : Note) : Nat := note.duration * 48

/-- R71, R72: a voice ends its last note. While the note has sample instants left this is no such event (log 5). -/
def voiceEnds (n : Nr) (s : State) : State :=
  match s.announce.voices.get n with
  | .sounding [note] _ k =>
    if noteRun note ≤ k then
      voiceFinished n (s.setAnnounce { s.announce with voices := s.announce.voices.set n .idle })
    else s
  | _ => s

/-- R72: a note that is not the last ends, and the next begins at phase 0. While the note has sample instants left this is no such
event (log 5). -/
def noteEnds (n : Nr) (s : State) : State :=
  match s.announce.voices.get n with
  | .sounding (note :: next :: rest) level k =>
    if noteRun note ≤ k then
      s.setAnnounce { s.announce with voices := s.announce.voices.set n (.sounding (next :: rest) level 0) }
    else s
  | _ => s

/-! ### Timers and ANN's presence -/

/-- R75: the duration timer of the active record with this id expires. -/
def durationExpires (id : Nat) (s : State) : State :=
  match s.announce.active.find? fun a => a.id == id with
  | none => s
  | some a =>
    match a.timer with
    | none => s
    | some deadline => releaseAnn a .timeout (s.at_ deadline)

/-- The record in LIVE (R74). -/
def AnnounceUnit.liveRecord (u : AnnounceUnit) : Option Ann := u.active.find? fun a => a.phase == .live

/-- R74: the source-loss timer expires. -/
def lossExpires (s : State) : State :=
  match s.announce.sourceLoss with
  | none => s
  | some deadline =>
    let t := s.at_ deadline
    let u := t.setAnnounce { t.announce with sourceLoss := none }
    match u.announce.liveRecord with
    | none => u
    | some a => releaseAnn a .noSource u

/-- R41, R42, R74: a sample arrives on ANN. Its command is taken in every state, in START_UP of the link too (log 33). -/
def annArrives (sample : Sample) (s : State) : State :=
  let t := { s with intake := { s.intake with slot := sample, fresh := true, annPresent := true,
                                              annSilence := some silenceRun } }
  let u := t.setCond .announceSourcePresent true
  if s.intake.annPresent then u else u.setAnnounce { u.announce with sourceLoss := none }

/-- The sample instants left on an input's silence timer, none where it is idle (R42). -/
def Intake.silence (i : Intake) : Input → Option Nat
  | .prog n => i.progSilence.get n
  | .ann => i.annSilence

/-- R42, R74: an input's silence timer expires. While it has sample instants left this is no such event (log 5). -/
def silenceExpires (input : Input) (s : State) : State :=
  if s.intake.silence input = some 0 then
    match input with
    | .prog n =>
      showInput n { s with intake := { s.intake with progPresent := s.intake.progPresent.set n false,
                                                     progSilence := s.intake.progSilence.set n none } }
    | .ann =>
      let t := { s with intake := { s.intake with annPresent := false, annSilence := none } }
      let u := t.setCond .announceSourcePresent false
      match u.announce.liveRecord with
      | none => u
      | some _ => u.setAnnounce { u.announce with sourceLoss := some (u.clock + 2000) }
  else s

/-! ### Requests -/

/-- A target set as ANNOUNCE carries it. -/
def targetSet (targets : List Nat) : Four Bool := .tabulate fun n => targets.contains n.toNat

/-- ANNOUNCE (R65). -/
def announceRequest (kind : AnnKind) (pattern : Nat) (targets : List Nat) (priority maxDuration : Nat) (s : State) : Answer :=
  if announceValid kind pattern targets priority maxDuration then
    if s.announce.queue.length < annRoom then
      let r := makeAnn kind pattern (targetSet targets) priority (if maxDuration = 0 then 30 else maxDuration) .host s
      .ok (r.1, .announceId r.2)
    else .error .full
  else .error .badValue

/-- ANNOUNCE_END (R76). -/
def announceEnd (id : Nat) (s : State) : Answer :=
  if within 1 255 id then
    match s.announce.queue.find? fun a => a.id == id with
    | some a =>
      let t := s.setAnnounce { s.announce with queue := s.announce.queue.filter fun b => b.id != id }
      .ok (t.reportAnn a (.ended .cancelled), .empty)
    | none =>
      match s.announce.active.find? fun a => a.id == id with
      | some a => .ok (releaseAnn a .ended s, .empty)
      | none => .error .notFound
  else .error .badValue

/-- CHIME_DEFINE (R79). -/
def chimeDefine (pattern count : Nat) (notes : List Note) (level : Nat) (s : State) : Answer :=
  if chimeValid pattern count notes level then
    .ok (s.setAnnounce { s.announce with patterns := s.announce.patterns.set (pattern - 1) ⟨notes, level⟩ }, .empty)
  else .error .badValue

/-! ### Meanings -/

/-- ANN_ARRIVAL (R41). -/
def execAnnArrival (sample : Sample) (s : State) : Host.Outcome State Fault Refusal := .next (annArrives sample s).kick

/-- INPUT_SILENCE_EXPIRY (R42). -/
def execInputSilenceExpiry (input : Input) (s : State) : Host.Outcome State Fault Refusal := .next (silenceExpires input s).kick

/-- ANNOUNCE (R65). -/
def execAnnounce (r : Req) (kind : AnnKind) (pattern : Nat) (targets : List Nat) (priority maxDuration : Nat) (s : State) :
    Host.Outcome State Fault Refusal :=
  .next (s.serve 0x30#8 r true (announceRequest kind pattern targets priority maxDuration)).kick

/-- ANNOUNCE_END (R76). -/
def execAnnounceEnd (r : Req) (id : Nat) (s : State) : Host.Outcome State Fault Refusal :=
  .next (s.serve 0x31#8 r true (announceEnd id)).kick

/-- CHIME_DEFINE (R79): a body whose length does not match its note count is refused with BAD_LENGTH. -/
def execChimeDefine (r : Req) (pattern count : Nat) (notes : List Note) (level : Nat) (s : State) :
    Host.Outcome State Fault Refusal :=
  .next (s.serve 0x32#8 r (count == notes.length) (chimeDefine pattern count notes level)).kick

/-- CHIME_NOTE_END (R72). -/
def execChimeNoteEnd (n : Nr) (s : State) : Host.Outcome State Fault Refusal := .next (noteEnds n s).kick

/-- CHIME_VOICE_FINISHED (R71). -/
def execChimeVoiceFinished (n : Nr) (s : State) : Host.Outcome State Fault Refusal := .next (voiceEnds n s).kick

/-- ANNOUNCE_DURATION_EXPIRY (R75). -/
def execAnnounceDurationExpiry (id : Nat) (s : State) : Host.Outcome State Fault Refusal := .next (durationExpires id s).kick

/-- SOURCE_LOSS_EXPIRY (R74). -/
def execSourceLossExpiry (s : State) : Host.Outcome State Fault Refusal := .next (lossExpires s).kick

end Sys2Proof.Machine
end

