-- ==== Sys2Proof/Machine/Booth.lean ====
section
/-! DEFINITION. Booth output lines (chapter 2): the operations of cues, forces, the stop and arm requests, the line timers, and
the meanings of OUTPUT_SET, OUTPUT_FORCE, OUTPUT_UNFORCE and of the three expiries. -/

namespace Sys2Proof.Machine

/-! ### One line -/

/-- A line with its pulse or blink ended at the level it holds (R31, R34, R37). -/
def LineRec.steady (l : LineRec) : LineRec := { l with op := .steady, timer := none, width := none, halfPeriod := none }

/-- R31: ASSERT or RELEASE of an unforced line. -/
def LineRec.settle (l : LineRec) (level : Level) : LineRec := { LineRec.steady l with level := level }

/-- R32: a PULSE applied to a line in STEADY or BLINK. -/
def LineRec.pulse (l : LineRec) (clock delay width : Nat) : LineRec :=
  let kept := { LineRec.steady l with width := some width }
  if delay = 0 then { kept with level := .asserted, op := .pulseOn, timer := some (clock + width) }
  else { kept with op := .pulseWait, timer := some (clock + delay) }

/-- R34: a BLINK of an unforced line. -/
def LineRec.blink (l : LineRec) (clock halfPeriod : Nat) : LineRec :=
  { LineRec.steady l with level := .asserted, op := .blink, timer := some (clock + halfPeriod), halfPeriod := some halfPeriod }

/-- R31: an operation handed to a line by an OUTPUT cue, with the outcome returned. -/
def LineRec.cue (l : LineRec) (clock : Nat) (op : OutputOp) : LineRec × CueOutcome :=
  if l.force.isSome then (l, .suppressedForced)
  else
    match op with
    | .assert => (LineRec.settle l .asserted, .done)
    | .release => (LineRec.settle l .released, .done)
    | .pulse delay width =>
      if l.op = .pulseWait ∨ l.op = .pulseOn then (l, .pulseBusy) else (LineRec.pulse l clock delay width, .done)
    | .blink halfPeriod => (LineRec.blink l clock halfPeriod, .done)

/-- R35: the line is forced to a level. -/
def LineRec.fix (l : LineRec) (level : Level) : LineRec := { LineRec.settle l level with force := some level }

/-- R36, R38: the line loses its force, its pulse or blink, and is RELEASED. -/
def LineRec.free (l : LineRec) : LineRec := { LineRec.settle l .released with force := none }

/-- R37: the stop request on a line, before SHUTTER is released. -/
def LineRec.stop (l : LineRec) : LineRec := if l.force.isSome then l else LineRec.steady l

/-- R34: the level turned over. -/
def Level.turned : Level → Level
  | .asserted => .released
  | .released => .asserted

/-! ### One unit -/

/-- R31: an OUTPUT cue's operation on one line of a unit. -/
def OutputUnit.cue (u : OutputUnit) (clock : Nat) (line : BoothLine) (op : OutputOp) : OutputUnit × CueOutcome :=
  let r := LineRec.cue (u.lines.get line) clock op
  ({ u with lines := u.lines.set line r.1 }, r.2)

/-- R37: the stop request. -/
def OutputUnit.stop (u : OutputUnit) : OutputUnit :=
  let ended := u.lines.map LineRec.stop
  { u with lines := if ended.shutter.force.isSome then ended
                    else { ended with shutter := LineRec.settle ended.shutter .released } }

/-- R38: the arm request. -/
def OutputUnit.arm (u : OutputUnit) : OutputUnit := { u with lines := u.lines.map LineRec.free }

/-- R30: the present state of a line as the replies carry it. -/
def LineRec.readout (s : State) (l : LineRec) : LineReadout :=
  { sense := l.sense, level := l.level, op := l.op, force := l.force, left := s.left l.timer }

/-- R30: the present state of all seven lines of a screen. -/
def outputsReply (s : State) (n : Nr) : ReplyBody :=
  .outputs ((s.outputs.get n).lines.map (LineRec.readout s)) (s.outputs.get n).hold

/-- R39: the level of a screen's HOLD line. -/
def State.setHold (s : State) (n : Nr) (level : Level) : State := s.setOutput n { s.outputs.get n with hold := level }

/-- One line of a unit replaced. -/
def State.setBoothLine (s : State) (n : Nr) (line : BoothLine) (r : LineRec) : State :=
  s.setOutput n { s.outputs.get n with lines := (s.outputs.get n).lines.set line r }

/-! ### Requests -/

/-- R30. -/
def outputSet (screen : Nat) (senses : Six Sense) (s : State) : Answer :=
  numbered screen fun n =>
    let u := s.outputs.get n
    let t := s.setOutput n { u with lines := Six.zipWith (fun r sense => { r with sense := sense }) u.lines senses }
    .ok (t, outputsReply t n)

/-- R35. -/
def outputForce (screen : Nat) (line : LineName) (level : Level) (s : State) : Answer :=
  numbered screen fun n =>
    match line with
    | .hold => .error .badValue
    | .cueDriven l =>
      let t := s.setBoothLine n l (LineRec.fix ((s.outputs.get n).lines.get l) level)
      .ok (t, outputsReply t n)

/-- R36. -/
def outputUnforce (screen : Nat) (line : LineName) (s : State) : Answer :=
  numbered screen fun n =>
    match line with
    | .hold => .error .badValue
    | .cueDriven l =>
      let r := (s.outputs.get n).lines.get l
      if r.force.isSome then
        let t := s.setBoothLine n l (LineRec.free r)
        .ok (t, outputsReply t n)
      else .error .wrongState

/-! ### Expiries -/

/-- R33: a line timer expires in PULSE_WAIT. -/
def pulseDelayExpires (n : Nr) (line : BoothLine) (s : State) : State :=
  let r := (s.outputs.get n).lines.get line
  match r.op, r.timer with
  | .pulseWait, some deadline =>
    let t := s.at_ deadline
    t.setBoothLine n line { r with level := .asserted, op := .pulseOn, timer := some (t.clock + r.width.getD 0) }
  | _, _ => s

/-- R33: a line timer expires in PULSE_ON. -/
def pulseWidthExpires (n : Nr) (line : BoothLine) (s : State) : State :=
  let r := (s.outputs.get n).lines.get line
  match r.op, r.timer with
  | .pulseOn, some deadline => (s.at_ deadline).setBoothLine n line (LineRec.settle r .released)
  | _, _ => s

/-- R34: a line timer expires in BLINK. -/
def blinkExpires (n : Nr) (line : BoothLine) (s : State) : State :=
  let r := (s.outputs.get n).lines.get line
  match r.op, r.timer with
  | .blink, some deadline =>
    let t := s.at_ deadline
    t.setBoothLine n line { r with level := Level.turned r.level, timer := some (t.clock + r.halfPeriod.getD 0) }
  | _, _ => s

/-! ### Meanings -/

/-- OUTPUT_SET (R30). -/
def execOutputSet (r : Req) (screen : Nat) (senses : Six Sense) (s : State) : Host.Outcome State Fault Refusal :=
  .next (s.serve 0x20#8 r true (outputSet screen senses)).kick

/-- OUTPUT_FORCE (R35). -/
def execOutputForce (r : Req) (screen : Nat) (line : LineName) (level : Level) (s : State) : Host.Outcome State Fault Refusal :=
  .next (s.serve 0x21#8 r true (outputForce screen line level)).kick

/-- OUTPUT_UNFORCE (R36). -/
def execOutputUnforce (r : Req) (screen : Nat) (line : LineName) (s : State) : Host.Outcome State Fault Refusal :=
  .next (s.serve 0x22#8 r true (outputUnforce screen line)).kick

/-- PULSE_DELAY_EXPIRY (R33). -/
def execPulseDelayExpiry (n : Nr) (line : BoothLine) (s : State) : Host.Outcome State Fault Refusal :=
  .next (pulseDelayExpires n line s).kick

/-- PULSE_WIDTH_EXPIRY (R33). -/
def execPulseWidthExpiry (n : Nr) (line : BoothLine) (s : State) : Host.Outcome State Fault Refusal :=
  .next (pulseWidthExpires n line s).kick

/-- BLINK_HALF_PERIOD_EXPIRY (R34). -/
def execBlinkHalfPeriodExpiry (n : Nr) (line : BoothLine) (s : State) : Host.Outcome State Fault Refusal :=
  .next (blinkExpires n line s).kick

end Sys2Proof.Machine
end

