-- ==== Sys2Proof/Machine/DownQueue.lean ====
section
/-! DEFINITION. The down queue of a line as every block uses it (R116): entry, removal, and the look at a node's record. -/

namespace Sys2Proof.Machine

/-- The down queue's capacity, and the number of entries at which host requests are refused (R116). -/
def downRoom : Nat := 48

/-- The number of entries at which a host request is refused (R116). -/
def hostRoom : Nat := 40

/-- The record of a node address; addresses from 97 on name none. -/
def PostTable.node? (t : PostTable) (address : Nat) : Option Node := t.nodes[address]?

/-- Whether an address names a record that is PRESENT. -/
def PostTable.isPresent (t : PostTable) (address : Nat) : Bool :=
  match t.node? address with
  | none => false
  | some node => node.state == .present

/-- A node's outstanding message: the queue's outstanding entry for its address (R101, R116). -/
def PostTable.outstanding (t : PostTable) (address : Nat) : Option DownEntry :=
  t.queue.find? fun e => e.address == address && !(e.mark == .waiting)

/-- R116: a message enters the queue at its end, with the counter's number. -/
def PostTable.enter (t : PostTable) (clock address : Nat) (msg : DownMsg) (source : DownSource) : PostTable :=
  { t with queue := t.queue ++ [{ number := t.counter, address := address, msg := msg, source := source, entered := clock,
                                  mark := .waiting }]
           counter := afterCount 65535 t.counter }

/-- R116: a message enters the down queue of line `n`. -/
def State.enterDown (s : State) (n : Nr) (address : Nat) (msg : DownMsg) (source : DownSource) : State :=
  s.setPost n ((s.posts.get n).enter s.clock address msg source)

/-- R116: whether a message of the order table may enter. -/
def orderMayEnter (s : State) (n : Nr) : Bool :=
  decide ((s.posts.get n).queue.length < downRoom) && !((s.lines.get n).state == .off)

/-- R116: a message of the order table is offered; whether it entered. -/
def offerDown (n : Nr) (address : Nat) (msg : DownMsg) (number : Nat) (s : State) : State × Bool :=
  if orderMayEnter s n then (s.enterDown n address msg (.order number), true) else (s, false)

/-- An entry removed from the queue by its message number. -/
def removeEntry (n : Nr) (number : Nat) (s : State) : State :=
  s.setPost n { s.posts.get n with queue := (s.posts.get n).queue.filter fun e => e.number != number }

end Sys2Proof.Machine
end

