-- ==== Sys2Proof/Machine/Kitchen.lean ====
section
/-! DEFINITION. The order table's shared operations (chapters 10 and 11): backlogs and KITCHEN_SATURATED, notices and their offers,
the release of deferred orders, the ending of an order, and what the table does when a place frees, a notice is dropped, a post
becomes PRESENT or a bay's presence changes. -/

namespace Sys2Proof.Machine

/-! ### The table -/

/-- The live order with a number. -/
def OrderTable.find (t : OrderTable) (number : Nat) : Option Order := t.live.find? fun o => o.number == number

/-- The live order with the same number replaced. -/
def State.setOrder (s : State) (o : Order) : State :=
  s.setOrders { s.orders with live := s.orders.live.map fun p => if p.number = o.number then o else p }

/-- An order is in the backlog group of states (R175). -/
def OrderState.inKitchen : OrderState → Bool
  | .received => true
  | .accepted => true
  | .preparing => true
  | _ => false

/-- R176: KITCHEN_SATURATED is decided. -/
def decideSaturated (s : State) : State :=
  s.setCond .kitchenSaturated (saturatedAfter s.orders (State.level s .kitchenSaturated))

/-- R175: an order's work joins the backlogs, and KITCHEN_SATURATED is decided. -/
def addWork (work : Four Nat) (s : State) : State :=
  decideSaturated (s.setOrders { s.orders with backlog := .tabulate fun n => s.orders.backlog.get n + work.get n })

/-- R175: an order's work leaves the backlogs, and KITCHEN_SATURATED is decided. -/
def subWork (work : Four Nat) (s : State) : State :=
  decideSaturated (s.setOrders { s.orders with backlog := .tabulate fun n => s.orders.backlog.get n - work.get n })

/-- R168: ordering of a field becomes OPEN or CLOSED. -/
def setOrdering (n : Nr) (isOpen : Bool) (s : State) : State :=
  (s.setOrders { s.orders with ordering := s.orders.ordering.set n isOpen }).setCond (.orderingOpen n) isOpen

/-! ### Notices (section 11.4) -/

/-- The code of a mode (R187). -/
def OrderMode.code : OrderMode → Nat
  | .pickup => 0
  | .runner => 1
  | .intermission => 2

/-- The minutes an estimate shows (R174). -/
def minutesOf (estimate : Nat) : Nat := min 99 (ceilDiv estimate 60)

/-- The latest status of an order (R187). -/
def Order.latest (o : Order) : NoticeStatus :=
  match o.state with
  | .deferred => .received
  | .received => if o.mode = .intermission then .released else .received
  | .accepted => .accepted
  | .preparing => .preparing
  | .ready => if o.reminderSent then .reminder else if o.mode = .runner then .onItsWay else .ready

/-- The owed statuses that carry the window in their last byte, and a chime after them (R187, R190). -/
def NoticeStatus.atWindow : NoticeStatus → Bool
  | .ready => true
  | .onItsWay => true
  | .reminder => true
  | _ => false

/-- The one-shot statuses (R172, R187). -/
def NoticeStatus.oneShot : NoticeStatus → Bool
  | .cancelled => true
  | .rejected => true
  | .tooLate => true
  | .notFound => true
  | _ => false

/-- A window's number, 0 for none. -/
def windowNumber : Option Nr → Nat
  | none => 0
  | some w => w.toNat

/-- R187, R188: an owed notice built from the status and the record's present items. -/
def Order.notice (o : Order) (status : NoticeStatus) : DownMsg :=
  .orderStatus o.side o.number status (OrderMode.code o.mode) o.total
    (if status.atWindow then windowNumber o.window else minutesOf o.estimate)

/-- A bay side as a down message names it. -/
def Side.down : Side → DownSide
  | .left => .left
  | .right => .right

/-- R188, R190: the owed notice of a live order is offered to the down queue; a taken notice of a window is followed by a CHIME of
pattern 1, offered once. -/
def offerOwed (number : Nat) (s : State) : State :=
  match s.orders.find number with
  | none => s
  | some o =>
    match o.owed with
    | none => s
    | some status =>
      let r := offerDown o.field o.post.val (o.notice status) number s
      if r.2 then
        let t := r.1.setOrder { o with owed := none }
        if status.atWindow then (offerDown o.field o.post.val (.chime (Side.down o.side) 1) number t).1 else t
      else r.1

/-- R188: a notice is made, owed and offered. -/
def makeOwed (number : Nat) (status : NoticeStatus) (s : State) : State :=
  match s.orders.find number with
  | none => s
  | some o => offerOwed number (s.setOrder { o with owed := some status })

/-- R172: a one-shot notice is offered once. -/
def oneShot (field : Nr) (post : Nat) (msg : DownMsg) (number : Nat) (s : State) : State :=
  (offerDown field post msg number s).1

/-- The owed notices of a list of orders are offered one after another. -/
def offerAll (numbers : List Nat) (s : State) : State := numbers.foldl (fun t k => offerOwed k t) s

/-- R188: a place frees in the queue of line `n`: the owed notices of the line's orders whose posts are PRESENT are offered in
order of placement. An offer after a refused one would be refused too, and leaves its notice owed. -/
def placeFree (n : Nr) (s : State) : State :=
  offerAll ((s.orders.live.filter fun o => o.field == n && (s.posts.get n).isPresent o.post.val).map (·.number)) s

/-- R109, R188: a post has become PRESENT: the owed notices of its bays are offered in order of placement. -/
def postReturned (n : Nr) (address : Nat) (s : State) : State :=
  offerAll ((s.orders.live.filter fun o => o.field == n && o.post.val == address).map (·.number)) s

/-- R189: a dropped message is told to the order table. -/
def noticeDropped (n : Nr) (e : DownEntry) (s : State) : State :=
  match e.msg with
  | .orderStatus side number status _ _ _ =>
    if status.oneShot then s
    else
      match s.orders.live.find? fun o => o.number == number && o.field == n && o.post.val == e.address && o.side == side with
      | none => s
      | some o =>
        if o.owed = none ∧ o.latest = status then
          let t := s.setOrder { o with owed := some status }
          if (s.posts.get n).isPresent e.address then offerOwed number t else t
        else s
  | _ => s

/-- The kind of a down message (R115). -/
def DownMsg.kind : DownMsg → DownKind
  | .display .. => .display
  | .orderStatus .. => .orderStatus
  | .chime .. => .chime
  | .bayConfig .. => .bayConfig
  | .exciter .. => .exciter

/-- R121: a message is dropped: it leaves the queue, is reported, the order table is told, and a place is free (log 20). -/
def dropEntry (n : Nr) (reason : DropReason) (e : DownEntry) (s : State) : State :=
  let t := (removeEntry n e.number s).report .line (.downFailed n e.address e.number e.msg.kind e.source reason)
  placeFree n (noticeDropped n e t)

/-! ### Life of an order -/

/-- R192: an ORDER_NEW report. -/
def reportNew (o : Order) (s : State) : State :=
  s.report .order (.orderNew o.number o.field o.post.val o.side o.mode o.lines o.total o.estimate o.work)

/-- The acceptance timer's run (R181). -/
def acceptanceRun : Nat := 60000

/-- R182: one deferred order is released. -/
def releaseOrder (o : Order) (s : State) : State :=
  let p := { o with state := .received, stateEntered := s.clock }
  let t := addWork o.work (s.setOrder p)
  let q := { p with acceptance := some (s.clock + acceptanceRun) }
  makeOwed o.number .released (reportNew q (t.setOrder q))

/-- R182: every deferred order of a field is released, in order of placement. -/
def releaseDeferred (n : Nr) (s : State) : State :=
  (s.orders.live.filter fun o => o.field == n && o.state == .deferred).foldl (fun t o => releaseOrder o t) s

/-- The cancel reason codes of a CANCELLED notice (R187). -/
def BoothReason.code : BoothReason → Nat
  | .itemOut => 2
  | .kitchenClosed => 3
  | .booth => 4

/-- R180 step 7: the one-shot notice of an ending. -/
def endNotice (o : Order) (reason : EndReason) (booth : Option BoothReason) (s : State) : State :=
  match reason with
  | .collected => s
  | .customer => oneShot o.field o.post.val (.orderStatus o.side o.number .cancelled 1 o.total 0) o.number s
  | .noKitchen => oneShot o.field o.post.val (.orderStatus o.side o.number .rejected 7 0 0) o.number s
  | .booth =>
    oneShot o.field o.post.val
      (.orderStatus o.side o.number .cancelled ((booth.map BoothReason.code).getD 4) o.total 0) o.number s

/-- R180: an order ends. Its timers and its owed notice go with its record. -/
def endOrder (o : Order) (reason : EndReason) (booth : Option BoothReason) (s : State) : State :=
  let t := if o.state.inKitchen then subWork o.work s else s
  let u := t.setOrders { t.orders with windows := t.orders.windows.map fun q => q.filter fun k => k != o.number
                                       live := t.orders.live.filter fun p => p.number != o.number }
  endNotice o reason booth
    (u.report .order (.orderEnded o.number o.field o.post.val o.side o.mode o.state reason booth))

/-- The bay of a record. -/
def Node.bay (v : Node) : Side → Bay
  | .left => v.left
  | .right => v.right

/-- The bay-empty timer's run (R192). -/
def bayEmptyRun : Nat := 120000

/-- R192: the bay-empty timer of an order, from its bay. -/
def bayEmptyTimer (o : Order) (b : Bay) : Option Nat :=
  match b.presence, b.emptySince with
  | .empty, some since => if o.bayEmptyReported then none else some (since + bayEmptyRun)
  | _, _ => none

/-- R192: the order table is told of a change of presence at a post. -/
def bayTold (n : Nr) (address : Nat) (s : State) : State :=
  match (s.posts.get n).node? address with
  | none => s
  | some v =>
    s.setOrders { s.orders with live := s.orders.live.map fun o =>
      if o.field = n ∧ o.post.val = address then { o with bayEmpty := bayEmptyTimer o (v.bay o.side) } else o }

end Sys2Proof.Machine
end

