-- ==== Sys2Proof/Machine/Timeline.lean ====
section
/-! DEFINITION. The screen timeline (chapter 1): the frame filter, the cue list, the release test, the fire pass, holds, and the
meanings of its rows. -/

namespace Sys2Proof.Machine

/-! ### The frame filter (R1) -/

/-- One sample of FRAMEn, and whether it counts a frame (R1). -/
def FrameFilter.sample (f : FrameFilter) (high : Bool) : FrameFilter × Bool :=
  match f.phase with
  | .waitLow =>
    if high then (⟨.waitLow, 0⟩, false) else if f.run = 1 then (⟨.waitHigh, 0⟩, false) else (⟨.waitLow, f.run + 1⟩, false)
  | .waitHigh =>
    if high then if f.run = 1 then (⟨.waitLow, 0⟩, true) else (⟨.waitHigh, f.run + 1⟩, false) else (⟨.waitHigh, 0⟩, false)

/-! ### States and reports -/

/-- The running states ARMED, RUNNING and HOLDING (section 1.4). -/
def ShowState.active : ShowState → Bool
  | .armed => true
  | .running => true
  | .holding => true
  | _ => false

/-- R15: a change of show state with its SHOW_STATE report. -/
def setShow (n : Nr) (new : ShowState) (cause : ShowCause) (s : State) : State :=
  let x := s.screens.get n
  (s.setScreen n { x with state := new }).report .show (.showState n x.state new x.position cause)

/-- R15: the same where nothing is reported of a state that stays as it was. -/
def changeShow (n : Nr) (new : ShowState) (s : State) : State :=
  if (s.screens.get n).state = new then s else setShow n new .request s

/-- R22: the stall timer cancelled and PROJECTION_STALLED low, as the show leaves RUNNING. -/
def leaveRunning (n : Nr) (s : State) : State :=
  (s.setScreen n { s.screens.get n with stall := none }).setCond (.projectionStalled n) false

/-- R22: the stall timer starts with the stall time. -/
def startStall (n : Nr) (s : State) : State :=
  let x := s.screens.get n
  s.setScreen n { x with stall := some (s.clock + x.settings.stallTime) }

/-! ### Next intermission and release (section 1.8) -/

/-- R26: the next intermission: the first unfired INTERMISSION_BEGIN cue in list order. -/
def Screen.nextIntermission (x : Screen) : Option Cue :=
  x.cues.find? fun c => !c.fired &&
    match c.action with
    | .intermissionBegin _ => true
    | _ => false

/-- R26: lead_frames. -/
def Screen.leadFrames (x : Screen) : Nat := x.settings.orderLead * x.settings.frameRate

/-- R26: the release position. -/
def Screen.releasePosition (x : Screen) : Option Nat :=
  x.nextIntermission.map fun c => if x.leadFrames ≤ c.position then c.position - x.leadFrames else 0

/-- R26: the release condition. -/
def Screen.releaseHolds (x : Screen) : Bool :=
  !x.state.active ||
    match x.releasePosition with
    | none => true
    | some p => decide (p ≤ x.position)

/-- R27: the release test. -/
def releaseTest (n : Nr) (s : State) : State := if (s.screens.get n).releaseHolds then releaseDeferred n s else s

/-! ### The cue list (R4) -/

/-- R4: a cue's place: after every cue whose position is not greater than its own. -/
def placeCue (c : Cue) : List Cue → List Cue
  | [] => [c]
  | d :: rest => if d.position ≤ c.position then d :: placeCue c rest else c :: d :: rest

/-- R4: a cue enters the list with its fired mark clear. -/
def CueSpec.cue (c : CueSpec) : Cue := { number := c.number, position := c.position, action := c.action, fired := false }

/-- R6: cues are added one after another. -/
def addCues (list : List Cue) (cues : List CueSpec) : List Cue := cues.foldl (fun l c => placeCue (CueSpec.cue c) l) list

/-- The cue list's capacity (R4). -/
def cueRoom : Nat := 64

/-! ### The fire pass (R12, R17 to R23) -/

/-- R14: the show ends. -/
def endShow (n : Nr) (cause : ShowCause) (s : State) : State := releaseTest n (setShow n .ended cause (leaveRunning n s))

/-- The inbound count of a field as the timeline reads it (R23). -/
def inboundCount (s : State) (n : Nr) : Nat := (s.fields.get n).inbound.length

/-- R17: a CUE_FIRED report. Its action carries all its parameters (log 42). -/
def reportFired (n : Nr) (c : Cue) (outcome : Option CueOutcome) (s : State) : State :=
  s.report .show (.cueFired n c.number c.position c.action outcome)

/-- A CHIME announcement of the timeline where its pattern is not 0 (R20, R23). -/
def chimeIfSet (n : Nr) (pattern priority : Nat) (origin : Origin) (s : State) : State :=
  if pattern = 0 then s else timelineChime n pattern priority origin s

/-- R23: a hold begins. -/
def beginHold (n : Nr) (c : Cue) (s : State) : State :=
  let count := inboundCount s n
  let t := leaveRunning n s
  let x := t.screens.get n
  let held := (t.setScreen n { x with state := .holding, overrun := 0,
                                      maxHold := some (s.clock + x.settings.maxHold * 1000) }).setHold n .asserted
  let risen := reportFired n c (some .held) (held.setCond (.showHolding n) true)
  (chimeIfSet n x.settings.holdChime 2 .hold risen).report .show
    (.holdBegan n c.number x.position count x.settings.holdThreshold)

/-- R17: a cue's action and its report, the cue's fired mark being set. -/
def carryOut (n : Nr) (c : Cue) (s : State) : State :=
  match c.action with
  | .output (.cueDriven line) op =>
    let r := (s.outputs.get n).cue s.clock line op
    reportFired n c (some r.2) (s.setOutput n r.1)
  | .output .hold _ => reportFired n c none s
  | .mark _ => reportFired n c none s
  | .intermissionBegin chime =>
    releaseTest n (reportFired n c none (chimeIfSet n chime 2 .cue (releaseDeferred n s)))
  | .intermissionEnd => reportFired n c none s
  | .holdPoint =>
    let t := (s.screens.get n).settings
    if t.holdEnable ∧ t.holdThreshold < inboundCount s n then beginHold n c s else reportFired n c (some .passed) s
  | .announce chime priority => reportFired n c none (timelineChime n chime priority .cue s)
  | .orderOpen => reportFired n c none (setOrdering n true s)
  | .orderCutoff => reportFired n c none (setOrdering n false s)
  | .finish => endShow n .endCue (reportFired n c none s)

/-- R12: the fire pass visits one cue: it fires if the show is RUNNING, the cue unfired and its position reached. -/
def visitCue (n : Nr) (s : State) (c : Cue) : State :=
  let x := s.screens.get n
  if x.state = .running ∧ c.fired = false ∧ c.position ≤ x.position then
    carryOut n c (s.setScreen n { x with cues := x.cues.map fun d => if d.number = c.number then { d with fired := true } else d })
  else s

/-- R12: the fire pass, and the position limit after a pass that leaves the show RUNNING. -/
def firePass (n : Nr) (s : State) : State :=
  let t := (s.screens.get n).cues.foldl (visitCue n) s
  let x := t.screens.get n
  if x.state = .running ∧ x.position = maxPosition then endShow n .positionLimit t else t

/-- The show enters RUNNING and its fire pass runs (R11, R25). -/
def runShow (n : Nr) (s : State) : State := releaseTest n (firePass n (startStall n s))

/-- R25: a hold ends: the effects that every reason has. -/
def dropHold (n : Nr) (reason : HoldReason) (s : State) : State :=
  let t := (s.setHold n .released).setCond (.showHolding n) false
  let x := t.screens.get n
  (t.setScreen n { x with maxHold := none }).report .show (.holdEnded n reason x.overrun x.position)

/-- R25: a hold ends and the show returns to RUNNING. -/
def endHold (n : Nr) (reason : HoldReason) (s : State) : State :=
  let t := dropHold n reason s
  runShow n (t.setScreen n { t.screens.get n with state := .running })

/-- R24: the timeline is told of a change of the inbound count. -/
def countTold (n : Nr) (s : State) : State :=
  let x := s.screens.get n
  if x.state = .holding ∧ inboundCount s n ≤ x.settings.holdThreshold then endHold n .seated s else s

/-! ### Frames and timers -/

/-- R2, R12, R24: the timeline takes a counted frame. -/
def frameTaken (n : Nr) (s : State) : State :=
  let x := s.screens.get n
  match x.state with
  | .running =>
    let t := startStall n (s.setScreen n { x with position := x.position + 1 })
    releaseTest n (firePass n (t.setCond (.projectionStalled n) false))
  | .holding => s.setScreen n { x with overrun := x.overrun + 1 }
  | _ => s

/-- R1, R2: one sample of FRAMEn. -/
def frameSample (n : Nr) (s : State) (high : Bool) : State :=
  let r := (s.screens.get n).filter.sample high
  let t := s.setScreen n { s.screens.get n with filter := r.1 }
  if r.2 then frameTaken n t else t

/-- R22: the stall timer expires. -/
def stallExpires (n : Nr) (s : State) : State :=
  let x := s.screens.get n
  match x.state, x.stall with
  | .running, some deadline =>
    ((s.at_ deadline).setScreen n { x with stall := none }).setCond (.projectionStalled n) true
  | _, _ => s

/-- R25: the maximum-hold timer expires. -/
def maxHoldExpires (n : Nr) (s : State) : State :=
  let x := s.screens.get n
  match x.state, x.maxHold with
  | .holding, some deadline => endHold n .timeout (s.at_ deadline)
  | _, _ => s

/-! ### Requests -/

/-- SCREEN_SET (R3): the release test is made, and then a hold is weighed against the new threshold. The manual does not order the
two (log 39). -/
def screenSet (screen : Nat) (settings : ScreenSettings) (s : State) : Answer :=
  numbered screen fun n =>
    if ScreenSettings.valid settings then
      .ok (countTold n (releaseTest n (s.setScreen n { s.screens.get n with settings := settings })), .empty)
    else .error .badValue

/-- CUE_LOAD (R6). -/
def cueLoad (screen count : Nat) (cues : List CueSpec) (s : State) : Answer :=
  numbered screen fun n =>
    let x := s.screens.get n
    if within 1 16 count && cues.all CueSpec.valid && freshNumbers (x.cues.map (·.number)) (cues.map (·.number)) then
      if x.state.active then .error .wrongState
      else if cueRoom < x.cues.length + cues.length then .error .full
      else .ok (releaseTest n (changeShow n .loaded (s.setScreen n { x with cues := addCues x.cues cues })), .empty)
    else .error .badValue

/-- CUE_INSERT (R7). -/
def cueInsert (screen : Nat) (c : CueSpec) (s : State) : Answer :=
  numbered screen fun n =>
    let x := s.screens.get n
    if CueSpec.valid c && freshNumbers (x.cues.map (·.number)) [c.number] then
      if cueRoom ≤ x.cues.length then .error .full
      else if x.state.active ∧ c.position ≤ x.position then .error .tooLate
      else
        let t := s.setScreen n { x with cues := addCues x.cues [c] }
        .ok (releaseTest n (if x.state = .empty then setShow n .loaded .request t else t), .empty)
    else .error .badValue

/-- CUE_DELETE (R8). -/
def cueDelete (screen number : Nat) (s : State) : Answer :=
  numbered screen fun n =>
    let x := s.screens.get n
    if within 1 255 number then
      match x.cues.find? fun c => c.number == number with
      | none => .error .notFound
      | some c =>
        if c.fired then .error .wrongState
        else
          let left := x.cues.filter fun d => d.number != number
          let t := s.setScreen n { x with cues := left }
          .ok (releaseTest n (if left = [] ∧ x.state = .loaded then setShow n .empty .request t else t), .empty)
    else .error .badValue

/-- CUE_CLEAR (R9). -/
def cueClear (screen : Nat) (s : State) : Answer :=
  numbered screen fun n =>
    let x := s.screens.get n
    if x.state.active then .error .wrongState
    else .ok (releaseTest n (changeShow n .empty (s.setScreen n { x with cues := [] })), .empty)

/-- SHOW_ARM (R10). -/
def showArm (screen : Nat) (s : State) : Answer :=
  numbered screen fun n =>
    let x := s.screens.get n
    if x.state = .loaded ∨ ((x.state = .stopped ∨ x.state = .ended) ∧ x.cues ≠ []) then
      let t := s.setScreen n { x with cues := x.cues.map fun c => { c with fired := false }, position := 0, overrun := 0 }
      let u := t.setOutput n (t.outputs.get n).arm
      .ok (releaseTest n (setShow n .armed .request u), .empty)
    else .error .wrongState

/-- SHOW_GO (R11). -/
def showGo (screen : Nat) (s : State) : Answer :=
  numbered screen fun n =>
    if (s.screens.get n).state = .armed then .ok (runShow n (setShow n .running .request s), .empty)
    else .error .wrongState

/-- SHOW_STOP (R13). -/
def showStop (screen : Nat) (s : State) : Answer :=
  numbered screen fun n =>
    if (s.screens.get n).state.active then
      let t := leaveRunning n (if (s.screens.get n).state = .holding then dropHold n .stopped s else s)
      let u := t.setOutput n (t.outputs.get n).stop
      .ok (releaseTest n (setShow n .stopped .request u), .empty)
    else .error .wrongState

/-- HOLD_RELEASE (R25). -/
def holdRelease (screen : Nat) (s : State) : Answer :=
  numbered screen fun n =>
    if (s.screens.get n).state = .holding then .ok (endHold n .operator s, .empty) else .error .wrongState

/-- SHOW_STATUS (R16). -/
def showStatus (screen : Nat) (s : State) : Answer :=
  numbered screen fun n =>
    let x := s.screens.get n
    .ok (s, .show { state := x.state, position := x.position, cues := x.cues.length, fired := (x.cues.filter (·.fired)).length,
                    nextIntermission := x.nextIntermission.map fun c => (c.number, c.position),
                    releasePosition := x.releasePosition, releaseHolds := x.releaseHolds, overrun := x.overrun,
                    holdSeconds := s.leftSeconds x.maxHold, showHolding := State.level s (.showHolding n),
                    projectionStalled := State.level s (.projectionStalled n), settings := x.settings })

/-! ### Meanings -/

/-- SCREEN_SET (R3). -/
def execScreenSet (r : Req) (screen : Nat) (settings : ScreenSettings) (s : State) : Host.Outcome State Fault Refusal :=
  .next (s.serve 0x10#8 r true (screenSet screen settings)).kick

/-- CUE_LOAD (R6): a body whose length does not match its count is refused with BAD_LENGTH. -/
def execCueLoad (r : Req) (screen count : Nat) (cues : List CueSpec) (s : State) : Host.Outcome State Fault Refusal :=
  .next (s.serve 0x11#8 r (count == cues.length) (cueLoad screen count cues)).kick

/-- CUE_INSERT (R7). -/
def execCueInsert (r : Req) (screen : Nat) (cue : CueSpec) (s : State) : Host.Outcome State Fault Refusal :=
  .next (s.serve 0x12#8 r true (cueInsert screen cue)).kick

/-- CUE_DELETE (R8). -/
def execCueDelete (r : Req) (screen number : Nat) (s : State) : Host.Outcome State Fault Refusal :=
  .next (s.serve 0x13#8 r true (cueDelete screen number)).kick

/-- CUE_CLEAR (R9). -/
def execCueClear (r : Req) (screen : Nat) (s : State) : Host.Outcome State Fault Refusal :=
  .next (s.serve 0x14#8 r true (cueClear screen)).kick

/-- SHOW_ARM (R10). -/
def execShowArm (r : Req) (screen : Nat) (s : State) : Host.Outcome State Fault Refusal :=
  .next (s.serve 0x15#8 r true (showArm screen)).kick

/-- SHOW_GO (R11). -/
def execShowGo (r : Req) (screen : Nat) (s : State) : Host.Outcome State Fault Refusal :=
  .next (s.serve 0x16#8 r true (showGo screen)).kick

/-- SHOW_STOP (R13). -/
def execShowStop (r : Req) (screen : Nat) (s : State) : Host.Outcome State Fault Refusal :=
  .next (s.serve 0x17#8 r true (showStop screen)).kick

/-- HOLD_RELEASE (R25). -/
def execHoldRelease (r : Req) (screen : Nat) (s : State) : Host.Outcome State Fault Refusal :=
  .next (s.serve 0x18#8 r true (holdRelease screen)).kick

/-- SHOW_STATUS (R16). -/
def execShowStatus (r : Req) (screen : Nat) (s : State) : Host.Outcome State Fault Refusal :=
  .next (s.serve 0x19#8 r true (showStatus screen)).kick

/-- FRAME_COUNTED (R2): the samples run through the frame filter, and each frame it counts is taken. -/
def execFrameCounted (n : Nr) (samples : List Bool) (s : State) : Host.Outcome State Fault Refusal :=
  .next (samples.foldl (frameSample n) s).kick

/-- STALL_TIMER_EXPIRY (R22). -/
def execStallTimerExpiry (n : Nr) (s : State) : Host.Outcome State Fault Refusal := .next (stallExpires n s).kick

/-- MAXIMUM_HOLD_EXPIRY (R25). -/
def execMaximumHoldExpiry (n : Nr) (s : State) : Host.Outcome State Fault Refusal := .next (maxHoldExpires n s).kick

end Sys2Proof.Machine
end

