-- ==== Sys2Proof/Machine/Occupancy.lean ====
section
/-! DEFINITION. Field occupancy (chapter 9): capacity and seated as the post table gives them, the inbound list, FIELD_FULL, the
hold link, and the meanings of SEAT_TIMEOUT, FIELD_SET and FIELD_STATUS. -/

namespace Sys2Proof.Machine

/-! ### Counts -/

/-- Whether a bay of a PRESENT post counts in capacity (R153). -/
def Bay.counts (b : Bay) : Nat := b.enabled.toNat

/-- Whether a bay of a PRESENT post counts as seated (R153). -/
def Bay.seats (b : Bay) : Nat := (b.enabled && b.presence == .occupied).toNat

/-- The post records of a table: addresses 1-96 (R101). -/
def PostTable.postNodes (t : PostTable) : List Node := t.nodes.toList.drop 1

/-- R153: the enabled bays of PRESENT posts. -/
def capacityOf (t : PostTable) : Nat :=
  (t.postNodes.map fun v => if v.state = .present then v.left.counts + v.right.counts else 0).sum

/-- R153: those whose presence is OCCUPIED. -/
def seatedOf (t : PostTable) : Nat :=
  (t.postNodes.map fun v => if v.state = .present then v.left.seats + v.right.seats else 0).sum

/-- R154: the effective capacity; a limit of 0 stands for none. -/
def Occupancy.effective (f : Occupancy) : Nat := if f.settings.limit = 0 then f.capacity else min f.capacity f.settings.limit

/-- R154: the bays available. -/
def Occupancy.free (f : Occupancy) : Nat := f.effective - f.seated - f.inbound.length

/-- R154, R158: available is worked out and FIELD_FULL decided. -/
def decideFull (n : Nr) (s : State) : State :=
  let f := s.fields.get n
  let t := s.setField n { f with available := f.free }
  t.setCond (.fieldFull n) (fieldFullAfter (State.level s (.fieldFull n)) f.free f.settings.reopenMargin)

/-- R157: the new count is given to the timeline if it differs from the count before. -/
def tellCount (n : Nr) (before : Nat) (s : State) : State := if inboundCount s n = before then s else countTold n s

/-- R153, R155, R157: one change that the post table tells of: the counts are taken anew and `seatings` seating events each remove
the oldest inbound entry. -/
def postsChanged (n : Nr) (seatings : Nat) (s : State) : State :=
  let f := s.fields.get n
  let t := s.posts.get n
  tellCount n f.inbound.length (decideFull n (s.setField n
    { f with capacity := capacityOf t, seated := seatedOf t, inbound := f.inbound.drop seatings }))

/-! ### The inbound list -/

/-- The inbound list's capacity (R155). -/
def inboundRoom : Nat := 64

/-- R156: an INBOUND_EXPIRED report. -/
def reportInbound (n : Nr) (e : Inbound) (reason : InboundReason) (count : Nat) (s : State) : State :=
  s.report .field (.inboundExpired n e.id reason (s.elapsed e.arrived) count)

/-- R155: an inbound arrival. -/
def inboundArrives (n : Nr) (id : Nat) (s : State) : State :=
  let f := s.fields.get n
  let entry : Inbound := { id := id, arrived := s.clock, timer := s.clock + f.settings.seatTimeout * 1000 }
  let before := f.inbound.length
  let t :=
    if before < inboundRoom then s.setField n { f with inbound := f.inbound ++ [entry] }
    else
      match f.inbound with
      | [] => s.setField n { f with inbound := [entry] }
      | oldest :: rest =>
        reportInbound n oldest .overflow inboundRoom (s.setField n { f with inbound := rest ++ [entry] })
  tellCount n before (decideFull n t)

/-- R156: the seat timer of the entry at a place of the list expires. -/
def seatExpires (n : Nr) (index : Nat) (s : State) : State :=
  let f := s.fields.get n
  match f.inbound[index]? with
  | none => s
  | some e =>
    let t := s.at_ e.timer
    let left := f.inbound.eraseIdx index
    countTold n (decideFull n (reportInbound n e .timeout left.length (t.setField n { f with inbound := left })))

/-! ### Requests -/

/-- R161: a field's present occupancy. -/
def fieldReply (s : State) (n : Nr) : ReplyBody :=
  let f := s.fields.get n
  .field { capacity := f.capacity, effective := f.effective, seated := f.seated, inbound := f.inbound.length,
           available := f.available, fieldFull := State.level s (.fieldFull n), settings := f.settings,
           line := (s.lines.get n).state, oldest := f.inbound.head?.map fun e => (e.id, s.elapsed e.arrived) }

/-- FIELD_SET (R160). -/
def fieldSet (field : Nat) (settings : FieldSettings) (s : State) : Answer :=
  numbered field fun n =>
    if FieldSettings.valid settings then
      let t := decideFull n (s.setField n { s.fields.get n with settings := settings })
      .ok (t, fieldReply t n)
    else .error .badValue

/-- FIELD_STATUS (R161). -/
def fieldStatus (field : Nat) (s : State) : Answer := numbered field fun n => .ok (s, fieldReply s n)

/-! ### Meanings -/

/-- SEAT_TIMEOUT (R156): the seat timer of the entry at place `index` of the field's inbound list. -/
def execSeatTimeout (n : Nr) (index : Nat) (s : State) : Host.Outcome State Fault Refusal := .next (seatExpires n index s).kick

/-- FIELD_SET (R160). -/
def execFieldSet (r : Req) (field : Nat) (settings : FieldSettings) (s : State) : Host.Outcome State Fault Refusal :=
  .next (s.serve 0x48#8 r true (fieldSet field settings)).kick

/-- FIELD_STATUS (R161). -/
def execFieldStatus (r : Req) (field : Nat) (s : State) : Host.Outcome State Fault Refusal :=
  .next (s.serve 0x49#8 r true (fieldStatus field)).kick

end Sys2Proof.Machine
end

