-- ==== Sys2Proof/Machine/Gate.lean ====
section
/-! DEFINITION. Gate lanes and admissions (chapter 8): loop filters, the direction decoder, passes and their counts, blocked
timers, admission queues, and the meanings of their rows. -/

namespace Sys2Proof.Machine

/-! ### Parts of the gate -/

/-- Lane `n`. -/
def State.lane (s : State) (n : Nr) : Lane := s.gate.lanes.get n

/-- A loop of a lane. -/
def Lane.loop (l : Lane) : LoopName → LoopState
  | .a => l.loopA
  | .b => l.loopB

/-- A loop of a lane replaced. -/
def Lane.setLoop (l : Lane) (k : LoopName) (x : LoopState) : Lane :=
  match k with
  | .a => { l with loopA := x }
  | .b => { l with loopB := x }

/-- R144: LANE_BLOCKED follows the blocked timers. -/
def State.showBlocked (s : State) (n : Nr) : State := s.setCond (.laneBlocked n) (laneBlocked (s.lane n))

/-! ### The decoder (R138 to R140) -/

/-- A pass as the decoder counts it: its direction, and the flags BALK and TAILGATE (R140). -/
structure RawPass where
  direction : PassDirection
  balk : Bool
  tailgate : Bool
  deriving DecidableEq, Repr

/-- The passes counted from the pending count (R140). -/
def pendingPasses (d : PassDirection) (held : Nat) : List RawPass := List.replicate held ⟨d, false, true⟩

/-- A vehicle held pending, or counted at once where three are pending already (R138, R139). -/
def holdOne (d : PassDirection) (next : Decoder) (held : Nat) : Decoder × Nat × List RawPass :=
  if held < 3 then (next, held + 1, []) else (next, held, [⟨d, false, true⟩])

/-- R138, R139: the decoder takes a change of a loop's filtered level (`up` for ↑). A change that its state cannot receive while it
agrees with the filtered levels leaves it as it is. -/
def decode (d : Decoder) (held : Nat) (loop : LoopName) (up : Bool) : Decoder × Nat × List RawPass :=
  match d, loop, up with
  | .clear, .a, true => (.inA, held, [])
  | .inA, .b, true => (.inAB, held, [])
  | .inA, .a, false => (.clear, 0, ⟨.entry, true, false⟩ :: pendingPasses .entry held)
  | .inAB, .a, false => (.inB, held, [])
  | .inAB, .b, false => (.inA, held, [])
  | .inB, .b, false => (.clear, 0, ⟨.entry, false, false⟩ :: pendingPasses .entry held)
  | .inB, .a, true => holdOne .entry .inAB held
  | .clear, .b, true => (.outB, held, [])
  | .outB, .a, true => (.outBA, held, [])
  | .outB, .b, false => (.clear, 0, ⟨.exit, true, false⟩ :: pendingPasses .exit held)
  | .outBA, .b, false => (.outA, held, [])
  | .outBA, .a, false => (.outB, held, [])
  | .outA, .a, false => (.clear, 0, ⟨.exit, false, false⟩ :: pendingPasses .exit held)
  | .outA, .b, true => holdOne .exit .outBA held
  | d, _, _ => (d, held, [])

/-! ### Passes (R141 to R143, R147) -/

/-- The largest site vehicle count (R142). -/
def siteMax : Nat := 4294967295

/-- R142: the site count after a pass, and whether it was held at a bound. -/
def siteAfter (p : RawPass) (site : Nat) : Nat × Bool :=
  if p.balk then (site, false)
  else
    match p.direction with
    | .entry => if site < siteMax then (site + 1, false) else (site, true)
    | .exit => if site = 0 then (site, true) else (site - 1, false)

/-- R141, R147: whether an entry is matched to an admission on this lane. -/
def matches_ (l : Lane) (p : RawPass) : Bool := !p.balk && p.direction == .entry && !(l.settings.direction == .exit)

/-- R141: the flag WRONG_WAY. -/
def wrongWay (l : Lane) (p : RawPass) : Bool :=
  !p.balk && ((p.direction == .entry && l.settings.direction == .exit) || (p.direction == .exit && l.settings.direction == .entry))

/-- R141, R147: the flag UNPAID. -/
def unpaid (l : Lane) (p : RawPass) : Bool :=
  !p.balk && p.direction == .entry && (l.settings.direction == .exit || l.queue.isEmpty)

/-- R142: the lane counts after a pass. -/
def countsAfter (l : Lane) (p : RawPass) : LaneCounts :=
  let c := l.counts
  if p.balk then { c with balks := c.balks + 1 }
  else
    match p.direction with
    | .entry => { c with entries := c.entries + 1, unpaid := c.unpaid + (if unpaid l p then 1 else 0),
                         wrongWay := c.wrongWay + (if wrongWay l p then 1 else 0) }
    | .exit => { c with exits := c.exits + 1, wrongWay := c.wrongWay + (if wrongWay l p then 1 else 0) }

/-- R143: what a PASS report says of an admission. -/
def Admission.passed (a : Admission) : PassAdmission := ⟨a.id, a.field, a.cls, a.occupants⟩

/-- R141 to R143, R147: one counted pass, whole. -/
def countPass (n : Nr) (s : State) (p : RawPass) : State :=
  let l := s.lane n
  let taken := if matches_ l p then l.queue.head? else none
  let site := siteAfter p s.gate.site
  let t := s.setLane n { l with counts := countsAfter l p, queue := if taken.isSome then l.queue.tail else l.queue }
  let u := { t with gate := { t.gate with site := site.1 } }
  let flags : PassFlags := { balk := p.balk, tailgate := p.tailgate, wrongWay := wrongWay l p, unpaid := unpaid l p,
                             clamped := site.2 }
  let v := u.report .gate (.pass n p.direction flags (taken.map Admission.passed) site.1)
  match taken with
  | none => v
  | some a => inboundArrives a.field a.id v

/-- R138 to R140: a change of filtered level is handed to the decoder. -/
def decoderTakes (n : Nr) (loop : LoopName) (up : Bool) (s : State) : State :=
  let l := s.lane n
  let r := decode l.decoder l.held loop up
  r.2.2.foldl (countPass n) (s.setLane n { l with decoder := r.1, held := r.2.1 })

/-! ### Loop filters (R135, R136, R144) -/

/-- R144: a loop with a new filtered level: its blocked timer starts at HIGH and is idle at LOW. -/
def LoopState.turned (x : LoopState) (level : Bool) (deadline : Nat) : LoopState :=
  { x with level := level, blocked := if level then .running deadline else .idle }

/-- R135, R136, R144: a change of filtered level is handed to the blocked timer and, on an armed lane, to the decoder: LANE_BLOCKED's
report comes before those of the passes (log 44). The change that leaves both loops LOW on an unarmed lane arms it. -/
def loopChanges (n : Nr) (loop : LoopName) (level : Bool) (s : State) : State :=
  let l := s.lane n
  let turned := l.setLoop loop ((l.loop loop).turned level (s.clock + l.settings.blockedTime * 1000))
  let t := (s.setLane n turned).showBlocked n
  if l.armed then decoderTakes n loop level t
  else if turned.loopA.level = false ∧ turned.loopB.level = false then t.setLane n { turned with armed := true }
  else t

/-- R135: one sample in a loop's filter: the run count after it, and whether the filtered level changes. -/
def LoopState.filter (x : LoopState) (count : Nat) (high : Bool) : Nat × Bool :=
  if high = x.level then (0, false) else if x.run + 1 < count then (x.run + 1, false) else (0, true)

/-- R135: one sample of both loops: A's change is handed first, and B's second, each whole. Before the lane's first sample, which has
a command of its own, it changes nothing (log 5). -/
def laneSample (n : Nr) (s : State) (v : Bool × Bool) : State :=
  let l := s.lane n
  if l.sampled = false then s
  else
    let a := l.loopA.filter l.settings.filterCount v.1
    let b := l.loopB.filter l.settings.filterCount v.2
    let t := s.setLane n { l with loopA := { l.loopA with run := a.1 }, loopB := { l.loopB with run := b.1 } }
    let u := if a.2 then loopChanges n .a v.1 t else t
    if b.2 then loopChanges n .b v.2 u else u

/-- R136, R144: the first sample after a reset. -/
def firstSample (n : Nr) (a b : Bool) (s : State) : State :=
  let l := s.lane n
  if l.sampled then s
  else
    let deadline := s.clock + l.settings.blockedTime * 1000
    s.setLane n { l with sampled := true, loopA := (LoopState.mk a 0 .idle).turned a deadline,
                         loopB := (LoopState.mk b 0 .idle).turned b deadline, armed := !a && !b }

/-- R144: a loop's blocked timer expires. -/
def blockedExpires (n : Nr) (loop : LoopName) (s : State) : State :=
  let l := s.lane n
  let x := l.loop loop
  match x.blocked with
  | .running deadline => ((s.at_ deadline).setLane n (l.setLoop loop { x with blocked := .expired })).showBlocked n
  | _ => s

/-! ### Admissions -/

/-- The admission queue's capacity (R145). -/
def admissionRoom : Nat := 8

/-- The ids of the admissions in every lane's queue (R145). -/
def Gate.ids (g : Gate) : List Nat := Nr.all.flatMap fun n => (g.lanes.get n).queue.map (·.id)

/-- R148: the expiry timer of an admission runs out. -/
def admissionExpires (n : Nr) (id : Nat) (s : State) : State :=
  let l := s.lane n
  match l.queue.find? fun a => a.id == id with
  | none => s
  | some a =>
    let t := (s.at_ a.timer).setLane n { l with queue := l.queue.filter fun b => b.id != id }
    t.report .gate (.admitExpired n a.id a.field a.cls a.occupants (t.elapsed a.arrived))

/-- ADMIT (R145, R146). -/
def admitRequest (lane field : Nat) (cls : VehicleClass) (occupants : Nat) (override : Bool) (s : State) : Answer :=
  numbered lane fun n =>
    numbered field fun k =>
      let l := s.lane n
      if within 1 15 occupants = false ∨ l.settings.direction = .exit then .error .badValue
      else if admissionRoom ≤ l.queue.length then .error .full
      else if State.level s (.fieldFull k) ∧ override = false then .error .fieldFull
      else
        let id := takeCount 65535 s.gate.ids s.gate.nextId
        let a : Admission := { id := id, field := k, cls := cls, occupants := occupants, arrived := s.clock,
                               timer := s.clock + l.settings.expiry * 1000 }
        let t := s.setLane n { l with queue := l.queue ++ [a] }
        .ok ({ t with gate := { t.gate with nextId := afterCount 65535 id } }, .admitted id (l.queue.length + 1))

/-- ADMIT_CANCEL (R149). -/
def admitCancel (lane id : Nat) (s : State) : Answer :=
  numbered lane fun n =>
    let l := s.lane n
    if within 1 65535 id then
      if l.queue.any fun a => a.id == id then
        let left := l.queue.filter fun a => a.id != id
        .ok (s.setLane n { l with queue := left }, .depth left.length)
      else .error .notFound
    else .error .badValue

/-- The deadline of a blocked timer that runs. -/
def BlockedTimer.deadline : BlockedTimer → Option Nat
  | .running t => some t
  | _ => none

/-- R150: the state of a blocked timer. -/
def BlockedTimer.readout : BlockedTimer → BlockedReadout
  | .idle => .idle
  | .running _ => .running
  | .expired => .expired

/-- R150: the lane's present state. -/
def laneReply (s : State) (n : Nr) : ReplyBody :=
  let l := s.lane n
  .lane { settings := l.settings, levelA := l.loopA.level, levelB := l.loopB.level, armed := l.armed, decoder := l.decoder,
          held := l.held, blockedA := l.loopA.blocked.readout, blockedLeftA := s.leftSeconds l.loopA.blocked.deadline,
          blockedB := l.loopB.blocked.readout, blockedLeftB := s.leftSeconds l.loopB.blocked.deadline,
          laneBlocked := State.level s (.laneBlocked n), counts := l.counts, queued := l.queue.length, site := s.gate.site }

/-- LANE_SET (R137). -/
def laneSet (lane : Nat) (settings : LaneSettings) (s : State) : Answer :=
  numbered lane fun n =>
    let l := s.lane n
    if LaneSettings.valid settings then
      if settings.direction = .exit ∧ l.queue ≠ [] then .error .wrongState
      else
        let t := s.setLane n { l with settings := settings, loopA := { l.loopA with run := 0 }, loopB := { l.loopB with run := 0 } }
        .ok (t, laneReply t n)
    else .error .badValue

/-- COUNT_READ (R150). -/
def countRead (lane : Nat) (s : State) : Answer := numbered lane fun n => .ok (s, laneReply s n)

/-- COUNT_ADJUST with operation SET_SITE (R151). -/
def setSite (value : BitVec 32) (s : State) : Answer :=
  .ok ({ s with gate := { s.gate with site := value.toNat } }, .siteCount value.toNat)

/-- COUNT_ADJUST with operation CLEAR_LANE (R151). -/
def clearLane (lane : Nat) (s : State) : Answer :=
  numbered lane fun n => .ok (s.setLane n { s.lane n with counts := ⟨0, 0, 0, 0, 0⟩ }, .siteCount s.gate.site)

/-! ### Meanings -/

/-- LANE_FIRST_SAMPLE (R136). -/
def execLaneFirstSample (n : Nr) (a b : Bool) (s : State) : Host.Outcome State Fault Refusal := .next (firstSample n a b s).kick

/-- LOOP_LEVEL_CHANGE (R135): the samples of both loops run through the filters. -/
def execLoopLevelChange (n : Nr) (samples : List (Bool × Bool)) (s : State) : Host.Outcome State Fault Refusal :=
  .next (samples.foldl (laneSample n) s).kick

/-- BLOCKED_TIMER_EXPIRY (R144). -/
def execBlockedTimerExpiry (n : Nr) (loop : LoopName) (s : State) : Host.Outcome State Fault Refusal :=
  .next (blockedExpires n loop s).kick

/-- ADMISSION_EXPIRY (R148). -/
def execAdmissionExpiry (n : Nr) (id : Nat) (s : State) : Host.Outcome State Fault Refusal := .next (admissionExpires n id s).kick

/-- LANE_SET (R137). -/
def execLaneSet (r : Req) (lane : Nat) (settings : LaneSettings) (s : State) : Host.Outcome State Fault Refusal :=
  .next (s.serve 0x40#8 r true (laneSet lane settings)).kick

/-- ADMIT (R146). -/
def execAdmit (r : Req) (lane field : Nat) (cls : VehicleClass) (occupants : Nat) (override : Bool) (s : State) :
    Host.Outcome State Fault Refusal :=
  .next (s.serve 0x41#8 r true (admitRequest lane field cls occupants override)).kick

/-- ADMIT_CANCEL (R149). -/
def execAdmitCancel (r : Req) (lane id : Nat) (s : State) : Host.Outcome State Fault Refusal :=
  .next (s.serve 0x42#8 r true (admitCancel lane id)).kick

/-- COUNT_READ (R150). -/
def execCountRead (r : Req) (lane : Nat) (s : State) : Host.Outcome State Fault Refusal :=
  .next (s.serve 0x43#8 r true (countRead lane)).kick

/-- COUNT_ADJUST with operation SET_SITE (R151). -/
def execCountAdjustSetSite (r : Req) (value : BitVec 32) (s : State) : Host.Outcome State Fault Refusal :=
  .next (s.serve 0x44#8 r true (setSite value)).kick

/-- COUNT_ADJUST with operation CLEAR_LANE (R151). -/
def execCountAdjustClearLane (r : Req) (lane : Nat) (s : State) : Host.Outcome State Fault Refusal :=
  .next (s.serve 0x44#8 r true (clearLane lane)).kick

end Sys2Proof.Machine
end

