-- ==== Sys2Proof/Config.lean ====
section
/-! DEFINITION. What an implementation fixes and what the manual leaves open, as constants without a body: nothing can be
proved about their values. Constants whose arguments are records of the state stand in Machine/State.lean's companion
Machine/Open.lean, since they need those records. -/

namespace Sys2Proof

/-- The part's 32-bit serial number, "fixed at manufacture" (R205). The manual gives no value (log 9). -/
opaque Config.serialNumber : BitVec 32

/-- Whether a LINE_STOP or a driver fault between the end of a cycle's AUDIO frame and the end of its reply window finds the window
open (true), or a DOWN or POLL frame in flight (false). The table has no row for the end of the POLL frame, so the state does not
tell (R93 step 1, R94 step 1; log 19). Applied to `State.freeCount`. -/
opaque Config.stopFindsWindowOpen : Nat → Bool

/-- The k-th sample of a survey's capture that no command has told of before its measuring timer expires, on the scale of
SURVEY_STEP_LAUNCH's (R129; logs 23, 43). Applied to `State.freeCount` and k. -/
opaque Config.surveySample : Nat → Nat → Int

end Sys2Proof
end

