-- ==== Sys2Proof/Machine/Intake.lean ====
section
/-! DEFINITION. Orders and cancels that arrive from the posts (sections 10.5 to 10.7). -/

namespace Sys2Proof.Machine

/-- An upstream ORDER as the post table hands it over (R114): a mode code, a line count, and the lines. -/
structure Keyed where
  mode : Nat
  count : Nat
  lines : List OrderLine
  deriving DecidableEq, Repr

/-- A mode by its code (R187). -/
def OrderMode.ofCode : Nat → Option OrderMode
  | 0 => some .pickup
  | 1 => some .runner
  | 2 => some .intermission
  | _ => none

/-- The menu item with a code. -/
def OrderTable.item (t : OrderTable) (code : Nat) : Option MenuItem := t.menu.find? fun i => i.code == code

/-- Whether an item can be ordered (R164). -/
def OrderTable.orderable (t : OrderTable) (code : Nat) : Bool :=
  match t.item code with
  | none => false
  | some i => i.availability == .available

/-- The standing of a bad code: 1 SOLD_OUT, 0 UNKNOWN (R172, R187). -/
def OrderTable.standing (t : OrderTable) (code : Nat) : Nat :=
  match t.item code with
  | none => 0
  | some i => if i.availability = .soldOut then 1 else 0

/-- The live orders of a bay, of every state (R171). -/
def OrderTable.ofBay (t : OrderTable) (n : Nr) (post : Nat) (side : Side) : List Order :=
  t.live.filter fun o => o.field == n && o.post.val == post && o.side == side

/-- Whether a bay is enabled and OCCUPIED (R171). -/
def carStands (s : State) (n : Nr) (post : Nat) (side : Side) : Bool :=
  match (s.posts.get n).node? post with
  | none => false
  | some v => (v.bay side).enabled && (v.bay side).presence == .occupied

/-- A rejection: its reason code, and for ITEM the bad code and its standing (R171, R172, R187). -/
structure Rejection where
  reason : Nat
  total : Nat
  last : Nat
  deriving DecidableEq, Repr

/-- The live orders the table holds at most (R169). -/
def orderRoom : Nat := 256

/-- R171: the checks of an arriving ORDER; the first that fails gives the reason. -/
def intakeCheck (s : State) (n : Nr) (post : Nat) (side : Side) (k : Keyed) : Option Rejection :=
  let t := s.orders
  if OrderMode.ofCode k.mode = none ∨ within 1 8 k.count = false ∨ k.lines.all (fun l => within 1 9 l.quantity) = false then
    some ⟨1, 0, 0⟩
  else if t.ordering.get n = false then some ⟨2, 0, 0⟩
  else if carStands s n post side = false then some ⟨3, 0, 0⟩
  else if 2 ≤ (t.ofBay n post side).length then some ⟨4, 0, 0⟩
  else
    match k.lines.find? fun l => !t.orderable l.code with
    | some l => some ⟨5, l.code, t.standing l.code⟩
    | none => if orderRoom ≤ t.live.length then some ⟨6, 0, 0⟩ else none

/-- R172: an ORDER is rejected by a one-shot notice. -/
def rejectOrder (n : Nr) (post : Nat) (side : Side) (r : Rejection) (s : State) : State :=
  oneShot n post (.orderStatus side 0 .rejected r.reason r.total r.last) 0 s

/-- R173: the sum of price and quantity over the lines, at the menu's present prices. -/
def orderTotal (t : OrderTable) (lines : List OrderLine) : Nat :=
  (lines.map fun l => ((t.item l.code).map (·.price)).getD 0 * l.quantity).sum

/-- R174: an order's work at a station. -/
def orderWork (t : OrderTable) (lines : List OrderLine) (station : Nr) : Nat :=
  (lines.map fun l =>
    match t.item l.code with
    | none => 0
    | some i => if i.station = station.toNat then i.prep * l.quantity else 0).sum

/-- R174: the time of one station for an order's work, 0 where it has none. -/
def stationTime (t : OrderTable) (work : Four Nat) (station : Nr) : Nat :=
  if work.get station = 0 then 0 else ceilDiv (t.backlog.get station + work.get station) (t.staff.get station)

/-- R174: the estimate. -/
def estimateOf (t : OrderTable) (work : Four Nat) : Nat := (Nr.all.map (stationTime t work)).foldl max 0

/-- R173 step 3: the mode as kept, KITCHEN_SATURATED and the field's release condition given. -/
def keptMode (keyed : OrderMode) (saturated released : Bool) : OrderMode :=
  match keyed with
  | .pickup => .pickup
  | .runner => if saturated then .pickup else .runner
  | .intermission => if released then .pickup else .intermission

/-- R173: an ORDER that passes every check is taken. -/
def takeOrder (n : Nr) (post : Fin 97) (side : Side) (keyed : OrderMode) (lines : List OrderLine) (s : State) : State :=
  let number := takeCount 999 (s.orders.live.map (·.number)) s.orders.nextNumber
  let work := Four.tabulate (orderWork s.orders lines)
  let total := orderTotal s.orders lines
  let estimate := estimateOf s.orders work
  let numbered := s.setOrders { s.orders with nextNumber := afterCount 999 number }
  let tested := if keyed = .intermission then releaseTest n numbered else numbered
  let mode := keptMode keyed (State.level s .kitchenSaturated) (s.screens.get n).releaseHolds
  let received := decide (mode ≠ .intermission)
  let o : Order :=
    { number := number, field := n, post := post, side := side, lines := lines, work := work, total := total, mode := mode,
      state := if received then .received else .deferred, placed := s.clock, stateEntered := s.clock, estimate := estimate,
      window := none, owed := none, reminderSent := false, bayEmptyReported := false,
      acceptance := if received then some (s.clock + acceptanceRun) else none, reminder := none, stale := none,
      bayEmpty := none }
  let held := tested.setOrders { tested.orders with live := tested.orders.live ++ [o] }
  let kitchen := if received then reportNew o (addWork work held) else held
  makeOwed number .received kitchen

/-- R171 to R173: an ORDER arrives from a bay. -/
def orderArrives (n : Nr) (post : Fin 97) (side : Side) (k : Keyed) (s : State) : State :=
  match intakeCheck s n post.val side k with
  | some r => rejectOrder n post.val side r s
  | none =>
    match OrderMode.ofCode k.mode with
    | none => s
    | some mode => takeOrder n post side mode k.lines s

/-- R177: a CANCEL arrives from a bay. -/
def cancelArrives (n : Nr) (post : Fin 97) (side : Side) (number : Nat) (s : State) : State :=
  match (s.orders.ofBay n post.val side).find? fun o => o.number == number with
  | none => oneShot n post.val (.orderStatus side number .notFound 0 0 0) number s
  | some o =>
    if o.state = .deferred ∨ o.state = .received then endOrder o .customer none s
    else oneShot n post.val (.orderStatus side number .tooLate 0 0 0) number s

end Sys2Proof.Machine
end

