-- ==== Sys2Proof/Machine/Posts.lean ====
section
/-! DEFINITION. Posts, polling and down messages (chapter 6): node records and their states, the poll schedule, what a reply
window's outcome does, the choice of down messages, and the meanings of the rows of the post table. -/

namespace Sys2Proof.Machine

/-! ### Records -/

/-- A node record replaced. -/
def PostTable.put (t : PostTable) (a : Fin 97) (v : Node) : PostTable := { t with nodes := t.nodes.set a.val v a.isLt }

/-- The record of a node. -/
def PostTable.node (t : PostTable) (a : Fin 97) : Node := t.nodes[a.val]

/-- A node record of line `n` replaced. -/
def State.setNode (s : State) (n : Nr) (a : Fin 97) (v : Node) : State := s.setPost n ((s.posts.get n).put a v)

/-- The record of a node of line `n`. -/
def State.node (s : State) (n : Nr) (a : Fin 97) : Node := (s.posts.get n).node a

/-- A bay whose presence is not known (R101). -/
def Bay.unknown (b : Bay) : Bay := { b with presence := .unknown, emptySince := none }

/-- A record whose presences are not known. -/
def Node.dark (v : Node) : Node := { v with left := v.left.unknown, right := v.right.unknown }

/-- R102: the values of a record that enters ABSENT or DISABLED. -/
def Node.away (v : Node) (state : NodeState) : Node :=
  { v.dark with state := state, speakerFault := false, keypadFault := false, downToggle := false, upToggle := none, errors := 0,
                silence := none }

/-- The silence timer's run (R101). -/
def silenceTime : Nat := 30000

/-- R102, R107: the values of a record that enters SILENT. -/
def Node.hush (v : Node) (clock : Nat) : Node := { v.dark with state := .silent, silence := some (clock + silenceTime) }

/-- R101: an outcome's kind added to the error latch. -/
def ErrorLatch.add (l : ErrorLatch) : WindowOutcome → ErrorLatch
  | .good => l
  | .noReply => { l with noReply := true }
  | .crc => { l with crc := true }
  | .abort => { l with abort := true }
  | .overlength => { l with overlength := true }
  | .wrongAddress => { l with wrongAddress := true }

/-- R112: FM_FAULT is worked out again. -/
def State.showFm (s : State) (n : Nr) : State := s.setCond (.fmFault n) (fmFault s n)

/-- R112: FM_FAULT follows a change at the exciter's record. -/
def exciterChanged (n : Nr) (a : Fin 97) (s : State) : State := if a.val = 0 then s.showFm n else s

/-- R111: what a POST_STATE report says of a node after a change. -/
def postDetail (s : State) (n : Nr) (a : Fin 97) : PostDetail :=
  let t := s.posts.get n
  let v := t.node a
  if a.val = 0 then .exciter t.carrier t.powerLow
  else .post v.speakerFault v.keypadFault v.left.presence v.right.presence

/-- R111: a POST_STATE report. -/
def reportPost (n : Nr) (a : Fin 97) (previous : NodeState) (cause : PostCause) (s : State) : State :=
  s.report .line (.postState n a.val previous (s.node n a).state cause (postDetail s n a))

/-! ### Leaving PRESENT (R119, R120) -/

/-- The age at which a waiting message to a node that is not PRESENT is dropped (R120). -/
def ageLimit : Nat := 60000

/-- R119: the outstanding message of an address returns to waiting. -/
def PostTable.recall (t : PostTable) (address : Nat) : PostTable :=
  { t with queue := t.queue.map fun e => if e.address = address then { e with mark := .waiting } else e }

/-- R120: the messages of an address that have reached the age limit are dropped, in queue order. -/
def dropAged (n : Nr) (address : Nat) (s : State) : State :=
  ((s.posts.get n).queue.filter fun e => e.address == address && decide (e.entered + ageLimit ≤ s.clock)).foldl
    (fun t e => dropEntry n .notPresent e t) s

/-- A record takes a state other than PRESENT: its bays leave the counts and the orders' timers (R153, R192), its outstanding
message returns to waiting and the aged ones are dropped (R119, R120). FIELD_FULL is decided before their DOWN_FAILED reports
(log 40). Where it was not PRESENT before, it only takes its new values. -/
def takeAway (n : Nr) (a : Fin 97) (v : Node) (s : State) : State :=
  let t := s.setNode n a v
  if (s.node n a).state = .present then
    let u := postsChanged n 0 (bayTold n a.val t)
    dropAged n a.val (u.setPost n ((u.posts.get n).recall a.val))
  else t

/-- Every address, in ascending order. -/
def addresses : List (Fin 97) := List.finRange 97

/-- R92, R94: every record that is not DISABLED becomes ABSENT. -/
def allAbsent (n : Nr) (s : State) : State :=
  addresses.foldl (fun t a => if (t.node n a).state = .disabled then t else takeAway n a ((t.node n a).away .absent) t) s

/-- R93: every PRESENT record becomes SILENT. -/
def allSilent (n : Nr) (s : State) : State :=
  addresses.foldl (fun t a => if (t.node n a).state = .present then takeAway n a ((t.node n a).hush t.clock) t else t) s

/-! ### The poll schedule (R103, R104) -/

/-- Whether a node is in the poll list (R103). -/
def Node.listed (v : Node) : Bool := v.state == .present || v.state == .silent

/-- The first ABSENT address after a position, counting cyclically (R103). -/
def PostTable.nextAbsent (t : PostTable) (after : Fin 97) : Option (Fin 97) :=
  let absent := addresses.filter fun a => (t.node a).state == .absent
  match absent.find? fun a => decide (after.val < a.val) with
  | some a => some a
  | none => absent.head?

/-- The first list address after the poll position, or the lowest (R103). -/
def PostTable.nextListed (t : PostTable) : Option (Fin 97) :=
  let list := addresses.filter fun a => (t.node a).listed
  let later := match t.pollPosition with
    | none => none
    | some p => list.find? fun a => decide (p.val < a.val)
  match later with
  | some a => some a
  | none => list.head?

/-- R104: the acknowledgment of a POLL: 2 for NONE. -/
def Node.ack (v : Node) : Nat :=
  match v.upToggle with
  | none => 2
  | some b => b.toNat

/-- R103: a list poll. -/
def PostTable.pollList (t : PostTable) (a : Fin 97) : PostTable × Poll :=
  ({ t with pollPosition := some a }, { address := a, ack := if a.val = 0 then 2 else (t.node a).ack, discovery := false })

/-- R103, R104: the choice of the node to poll. -/
def PostTable.choosePoll (t : PostTable) : PostTable × Poll :=
  let u := { t with cycle := if t.cycle = 8 then 1 else t.cycle + 1 }
  match u.nextListed, u.nextAbsent u.discovery with
  | some a, none => u.pollList a
  | some a, some d =>
    if u.cycle = 8 then ({ u with discovery := d }, { address := d, ack := 2, discovery := true }) else u.pollList a
  | none, some d => ({ u with discovery := d }, { address := d, ack := 2, discovery := true })
  | none, none => (u, { address := 0, ack := 2, discovery := false })

/-- R103: the schedule at entry to RUNNING from STARTING. -/
def PostTable.restartPolls (t : PostTable) : PostTable := { t with pollPosition := none, discovery := 96, cycle := 0 }

/-! ### The choice of the down message (R117) -/

/-- R117: whether an entry may be sent in this cycle. A message is due for resend when three polls have been waited (R118). -/
def PostTable.sendable (t : PostTable) (e : DownEntry) : Bool :=
  match e.mark with
  | .waiting => e.address == 255 || (t.isPresent e.address && (t.outstanding e.address).isNone)
  | .outstanding _ polls => polls == 3

/-- An entry of the queue with its mark replaced. -/
def PostTable.mark (t : PostTable) (number : Nat) (m : DownMark) : PostTable :=
  { t with queue := t.queue.map fun e => if e.number = number then { e with mark := m } else e }

/-- The down toggle under which a message goes to a node: 0 or 1. -/
def PostTable.toggle (t : PostTable) (address : Nat) : Nat :=
  match t.node? address with
  | none => 0
  | some v => v.downToggle.toNat

/-- R117: the cycle's down message is chosen and counts as sent; a broadcast leaves the queue and frees a place. -/
def chooseDown (n : Nr) (s : State) : State × Option DownFrame :=
  let t := s.posts.get n
  match t.queue.find? t.sendable with
  | none => (s, none)
  | some e =>
    match e.mark with
    | .waiting =>
      if e.address = 255 then (placeFree n (removeEntry n e.number s), some ⟨255, 2, e.msg⟩)
      else (s.setPost n (t.mark e.number (.outstanding 1 0)), some ⟨e.address, t.toggle e.address, e.msg⟩)
    | .outstanding sends _ =>
      (s.setPost n (t.mark e.number (.outstanding (sends + 1) 0)), some ⟨e.address, t.toggle e.address, e.msg⟩)

/-! ### Replies (R105 to R118) -/

/-- A node's down toggle flipped (R118). -/
def flipToggle (n : Nr) (a : Fin 97) (s : State) : State :=
  s.setNode n a { s.node n a with downToggle := !(s.node n a).downToggle }

/-- R118: an outstanding message is acknowledged. -/
def acknowledge (n : Nr) (a : Fin 97) (e : DownEntry) (s : State) : State :=
  placeFree n (flipToggle n a (removeEntry n e.number s))

/-- R118: a poll without acknowledgment. -/
def unacknowledged (n : Nr) (a : Fin 97) (s : State) : State :=
  match (s.posts.get n).outstanding a.val with
  | none => s
  | some e =>
    match e.mark with
    | .waiting => s
    | .outstanding sends polls =>
      if polls = 3 then s
      else if polls + 1 = 3 ∧ sends = 3 then dropEntry n .noAck e (flipToggle n a s)
      else s.setPost n ((s.posts.get n).mark e.number (.outstanding sends (polls + 1)))

/-- R118: the down acknowledgment of a GOOD reply. -/
def downAck (n : Nr) (a : Fin 97) (toggle : Bool) (s : State) : State :=
  match (s.posts.get n).outstanding a.val with
  | none => s
  | some e => if toggle = (s.node n a).downToggle then acknowledge n a e s else unacknowledged n a s

/-- A bay side by its byte (R114). -/
def Side.ofByte (b : Byte) : Option Side := if b = 0x00#8 then some .left else if b = 0x01#8 then some .right else none

/-- A call kind by its byte (R114). -/
def CallKind.ofByte (b : Byte) : Option CallKind :=
  if b = 0x01#8 then some .help else if b = 0x02#8 then some .service else none

/-- The lines of an upstream ORDER (R114). -/
def linesOf : List Byte → List OrderLine
  | code :: quantity :: rest => ⟨code.toNat, quantity.toNat⟩ :: linesOf rest
  | _ => []

/-- R114: an upstream message, its kind and body, is handed to its owner or discarded. -/
def upstream (n : Nr) (a : Fin 97) (kind : Byte) (body : List Byte) (s : State) : State :=
  match body with
  | [] => s
  | first :: rest =>
    match Side.ofByte first with
    | none => s
    | some side =>
      if kind = 0x01#8 then
        match rest with
        | mode :: count :: lines =>
          if lines.length = 2 * count.toNat then orderArrives n a side ⟨mode.toNat, count.toNat, linesOf lines⟩ s else s
        | _ => s
      else if kind = 0x02#8 then
        match rest with
        | [lo, hi] => cancelArrives n a side (fromLow lo hi) s
        | _ => s
      else if kind = 0x03#8 then
        match rest with
        | [code] =>
          match CallKind.ofByte code with
          | none => s
          | some call => s.report .line (.postCall n a.val side call)
        | _ => s
      else s

/-- A reply's status byte, kind byte and upstream body (R105); bytes that are not there read as 0. -/
structure ReplyParts where
  status : Byte
  kind : Byte
  body : List Byte
  deriving DecidableEq, Repr

/-- R105: the parts of a reply, its two CRC bytes left off. -/
def partsOf (bytes : List Byte) : ReplyParts :=
  let content := bytes.take (bytes.length - 2)
  { status := (content.drop 1).headD 0, kind := (content.drop 2).headD 0, body := content.drop 3 }

/-- R106: the form of a GOOD reply against the node polled. -/
def formFits (a : Fin 97) (bytes : List Byte) : Bool :=
  if a.val ≠ 0 ∧ (partsOf bytes).status.getLsbD 4 = true then decide (5 ≤ bytes.length) else decide (bytes.length = 4)

/-- A bay's presence as a status bit reports it (R105, R109). -/
def Bay.entered (b : Bay) (occupied : Bool) (clock : Nat) : Bay :=
  { b with presence := if occupied then .occupied else .empty, emptySince := if occupied then none else some clock }

/-- R110: a bay's presence compared with a status bit. -/
def Bay.compared (b : Bay) (occupied : Bool) (clock : Nat) : Bay :=
  if occupied = (b.presence == .occupied) then b else b.entered occupied clock

/-- R110: 1 if the comparison makes a seating event. -/
def Bay.seating (b : Bay) (occupied : Bool) : Nat := (b.enabled && occupied && !(b.presence == .occupied)).toNat

/-- R113: the upstream message of a GOOD reply, if there is one and it is new. -/
def upstreamReply (n : Nr) (a : Fin 97) (p : ReplyParts) (s : State) : State :=
  if a.val = 0 ∨ p.status.getLsbD 4 = false then s
  else
    let v := s.node n a
    let toggle := p.status.getLsbD 3
    if v.upToggle = some toggle then s
    else upstream n a p.kind p.body (s.setNode n a { v with upToggle := some toggle })

/-- R109, R111: the exciter's reported status is taken from a reply. -/
def takeStatus (n : Nr) (status : Byte) (s : State) : State :=
  s.setPost n { s.posts.get n with carrier := status.getLsbD 0, powerLow := status.getLsbD 1 }

/-- R109: a GOOD reply makes a record PRESENT. -/
def enterPresent (n : Nr) (a : Fin 97) (p : ReplyParts) (s : State) : State :=
  let v := s.node n a
  let base := { v with state := .present, errors := 0, silence := none, downToggle := false, upToggle := none }
  if a.val = 0 then
    reportPost n a v.state .reply ((takeStatus n p.status (s.setNode n a base)).showFm n)
  else
    let w := { base with left := v.left.entered (p.status.getLsbD 0) s.clock, right := v.right.entered (p.status.getLsbD 1) s.clock,
                         speakerFault := p.status.getLsbD 5, keypadFault := p.status.getLsbD 6 }
    let t := postsChanged n 0 (bayTold n a.val (s.setNode n a w))
    postReturned n a.val (upstreamReply n a p (reportPost n a v.state .reply t))

/-- R110, R111: a GOOD reply of a PRESENT post: its presences, then its fault flags. -/
def postReply (n : Nr) (a : Fin 97) (p : ReplyParts) (s : State) : State :=
  let v := s.node n a
  let l := p.status.getLsbD 0
  let r := p.status.getLsbD 1
  let w := { v with left := v.left.compared l s.clock, right := v.right.compared r s.clock }
  let t := if w = v then s
           else postsChanged n (v.left.seating l + v.right.seating r) (bayTold n a.val (s.setNode n a w))
  let x := t.node n a
  if x.speakerFault = p.status.getLsbD 5 ∧ x.keypadFault = p.status.getLsbD 6 then t
  else reportPost n a .present .status
    (t.setNode n a { x with speakerFault := p.status.getLsbD 5, keypadFault := p.status.getLsbD 6 })

/-- R111: a GOOD reply of the PRESENT exciter. -/
def exciterReply (n : Nr) (a : Fin 97) (p : ReplyParts) (s : State) : State :=
  let t := s.posts.get n
  if t.carrier = p.status.getLsbD 0 ∧ t.powerLow = p.status.getLsbD 1 then s
  else reportPost n a .present .status ((takeStatus n p.status s).showFm n)

/-- R109: a GOOD reply of a record already PRESENT, dealt with by R110, R111, R118 and R113 in that order. -/
def presentReply (n : Nr) (a : Fin 97) (p : ReplyParts) (s : State) : State :=
  let t := s.setNode n a { s.node n a with errors := 0 }
  let u := if a.val = 0 then exciterReply n a p t else postReply n a p t
  upstreamReply n a p (downAck n a (p.status.getLsbD 2) u)

/-- R107: an outcome in error for a node that is PRESENT. At the third, the reports of aged-out messages come before the POST_STATE
report (log 40). -/
def presentError (n : Nr) (a : Fin 97) (o : WindowOutcome) (s : State) : State :=
  let v := s.node n a
  let w := { v with latch := v.latch.add o, errors := v.errors + 1 }
  if w.errors < 3 then unacknowledged n a (s.setNode n a w)
  else reportPost n a .present .errors (exciterChanged n a (takeAway n a (w.hush s.clock) s))

/-- R106, R107, R109: the outcome of a reply window is taken by the post table. -/
def takeOutcome (n : Nr) (poll : Poll) (o : WindowOutcome) (bytes : List Byte) (s : State) : State :=
  let a := poll.address
  let v := s.node n a
  let kind := if o = .good ∧ formFits a bytes = false then .crc else o
  match v.state with
  | .disabled => s
  | .absent =>
    if poll.discovery = false then s
    else if kind = .good then enterPresent n a (partsOf bytes) s
    else if kind = .noReply then s
    else s.setNode n a { v with latch := v.latch.add kind }
  | .silent =>
    if kind = .good then enterPresent n a (partsOf bytes) s else s.setNode n a { v with latch := v.latch.add kind }
  | .present => if kind = .good then presentReply n a (partsOf bytes) s else presentError n a kind s

/-! ### Timers -/

/-- R108: the silence timer of a record expires. -/
def silenceEnds (n : Nr) (a : Fin 97) (s : State) : State :=
  let v := s.node n a
  match v.state, v.silence with
  | .silent, some deadline =>
    reportPost n a .silent .silenceTimeout (exciterChanged n a ((s.at_ deadline).setNode n a (v.away .absent)))
  | _, _ => s

/-- R120: the age limit of the waiting message with this number comes. -/
def ageComes (n : Nr) (number : Nat) (s : State) : State :=
  let t := s.posts.get n
  match t.queue.find? fun e => e.number == number with
  | none => s
  | some e =>
    if e.mark = .waiting ∧ e.address ≠ 255 ∧ t.isPresent e.address = false then
      dropEntry n .notPresent e (s.at_ (e.entered + ageLimit))
    else s

/-! ### Requests -/

/-- R125: an outstanding message as it is read. -/
def outstandingReadout (e : DownEntry) : OutstandingReadout :=
  match e.mark with
  | .waiting => ⟨e.number, e.msg.kind, 0, 0, false⟩
  | .outstanding sends polls => ⟨e.number, e.msg.kind, sends, polls, polls == 3⟩

/-- R125: an empty-since value: whole seconds elapsed up to 65,534, or FFFFh. -/
def emptyReadout (s : State) (b : Bay) : Nat :=
  match b.emptySince with
  | none => 0xFFFF
  | some since => min 65534 (s.elapsed since)

/-- A record as it is read: its moments are given beside it, as times elapsed and left. -/
def Node.timeless (v : Node) : Node :=
  { v with left := { v.left with emptySince := none }, right := { v.right with emptySince := none }, silence := none }

/-- R125: a whole record. -/
def nodeReadout (s : State) (n : Nr) (a : Fin 97) : NodeReadout :=
  let t := s.posts.get n
  let v := t.node a
  let out := (t.outstanding a.val).map outstandingReadout
  if a.val = 0 then
    .exciter v.state v.downToggle v.errors v.latch (s.leftSeconds v.silence) t.carrier t.powerLow t.reqCarrier t.channel out
  else .post a.val v.timeless (emptyReadout s v.left) (emptyReadout s v.right) (s.leftSeconds v.silence) out

/-- A node as a request names it: BAD_VALUE outside 0-96. -/
def addressed (address : Nat) (act : Fin 97 → Answer) : Answer :=
  if h : address < 97 then act ⟨address, h⟩ else .error .badValue

/-- POST_READ (R125). -/
def postRead (field address : Nat) (s : State) : Answer :=
  numbered field fun n =>
    addressed address fun a =>
      .ok (s.setNode n a { s.node n a with latch := .empty }, .node (nodeReadout s n a))

/-- R123: the disabled mark is set or cleared. The reports of aged-out messages come before the POST_STATE report (log 40). -/
def markNode (n : Nr) (a : Fin 97) (disabled : Bool) (s : State) : State :=
  let v := s.node n a
  if disabled ∧ v.state ≠ .disabled then
    reportPost n a v.state .request (exciterChanged n a (takeAway n a (v.away .disabled) s))
  else if disabled = false ∧ v.state = .disabled then
    reportPost n a .disabled .request (exciterChanged n a (s.setNode n a (v.away .absent)))
  else s

/-- R123, R153: the bay enables and the cable position are replaced. An enable that changes on a post that stays PRESENT changes
the counts; on one that becomes DISABLED it is part of that one change (`markNode`). -/
def setBays (n : Nr) (a : Fin 97) (disabled left right : Bool) (position : Nat) (s : State) : State :=
  let v := s.node n a
  let w := { v with left := { v.left with enabled := left }, right := { v.right with enabled := right },
                    position := if position = 0xFFFF then none else some position }
  let t := s.setNode n a w
  if v.state = .present ∧ disabled = false ∧ (v.left.enabled ≠ left ∨ v.right.enabled ≠ right) then postsChanged n 0 t else t

/-- POST_SET (R123). -/
def postSet (field address : Nat) (disabled left right : Bool) (position : Nat) (s : State) : Answer :=
  numbered field fun n =>
    addressed address fun a =>
      if a.val = 0 then .ok (markNode n a disabled s, .messageNumber 0)
      else if positionValid position then
        let v := s.node n a
        let needed := decide ((v.left.enabled ≠ left ∨ v.right.enabled ≠ right) ∧ disabled = false ∧ (s.lines.get n).state ≠ .off)
        if needed ∧ hostRoom ≤ (s.posts.get n).queue.length then .error .full
        else
          let t := setBays n a disabled left right position s
          let u := if needed then t.enterDown n a.val (.bayConfig left right) .host else t
          .ok (markNode n a disabled u, .messageNumber (if needed then (t.posts.get n).counter else 0))
      else .error .badValue

/-- The message of POST_SEND as it enters the queue. -/
def BoothMessage.down : BoothMessage → DownMsg
  | .display side seconds _ text => .display side seconds text
  | .chime side pattern => .chime side pattern
  | .other => .chime .both 0

/-- POST_SEND (R122). -/
def postSend (field address : Nat) (message : BoothMessage) (s : State) : Answer :=
  numbered field fun n =>
    if BoothMessage.valid message && (within 1 96 address || address == 255) then
      let t := s.posts.get n
      let named := match t.node? address with
        | none => false
        | some v => v.state == .disabled
      if (s.lines.get n).state = .off ∨ named = true then .error .wrongState
      else if hostRoom ≤ t.queue.length then .error .full
      else .ok (s.enterDown n address (BoothMessage.down message) .host, .messageNumber t.counter)
    else .error .badValue

/-- EXCITER_SET (R124). -/
def exciterSet (field : Nat) (carrier : Bool) (channel : Nat) (s : State) : Answer :=
  numbered field fun n =>
    if within 0 199 channel then
      let t := s.posts.get n
      if (s.lines.get n).state = .off ∨ (t.node 0).state = .disabled then .error .wrongState
      else if hostRoom ≤ t.queue.length then .error .full
      else
        let u := (s.setPost n { t with reqCarrier := carrier, channel := channel }).showFm n
        .ok (u.enterDown n 0 (.exciter carrier channel) .host, .messageNumber t.counter)
    else .error .badValue

/-! ### Meanings -/

/-- POST_SILENCE_TIMEOUT (R108). -/
def execPostSilenceTimeout (n : Nr) (address : Fin 97) (s : State) : Host.Outcome State Fault Refusal :=
  .next (silenceEnds n address s).kick

/-- DOWN_MESSAGE_AGE_LIMIT (R120). -/
def execDownMessageAgeLimit (n : Nr) (number : Nat) (s : State) : Host.Outcome State Fault Refusal :=
  .next (ageComes n number s).kick

/-- POST_READ (R125). -/
def execPostRead (r : Req) (field address : Nat) (s : State) : Host.Outcome State Fault Refusal :=
  .next (s.serve 0x3C#8 r true (postRead field address)).kick

/-- POST_SET (R123). -/
def execPostSet (r : Req) (field address : Nat) (disabled left right : Bool) (position : Nat) (s : State) :
    Host.Outcome State Fault Refusal :=
  .next (s.serve 0x3D#8 r true (postSet field address disabled left right position)).kick

/-- POST_SEND (R122): a body whose length disagrees with the text length is refused with BAD_LENGTH. -/
def execPostSend (r : Req) (field address : Nat) (message : BoothMessage) (s : State) : Host.Outcome State Fault Refusal :=
  .next (s.serve 0x3E#8 r (BoothMessage.lengthFits message) (postSend field address message)).kick

/-- EXCITER_SET (R124). -/
def execExciterSet (r : Req) (field : Nat) (carrier : Bool) (channel : Nat) (s : State) : Host.Outcome State Fault Refusal :=
  .next (s.serve 0x3F#8 r true (exciterSet field carrier channel)).kick

end Sys2Proof.Machine
end

