-- ==== Sys2Proof/Machine/Line.lean ====
section
/-! DEFINITION. Field lines and line surveys (chapters 5 and 7): the line states, the line cycle, the reply window, the survey
unit, a block boundary with everything it sets off, and the meanings of their rows. -/

namespace Sys2Proof.Machine

/-! ### Line states (R91 to R98) -/

/-- R98, R112: the line state changes: LINE_UP is high exactly in RUNNING, and FM_FAULT is worked out again. -/
def setLineState (n : Nr) (new : LineState) (s : State) : State :=
  let t := s.setLine n { s.lines.get n with state := new }
  (t.setCond (.lineUp n) (new == .running)).showFm n

/-- R98: a LINE_STATE report. -/
def reportLine (n : Nr) (previous : LineState) (cause : LineCause) (s : State) : State :=
  s.report .line (.lineState n previous (s.lines.get n).state cause)

/-- How an exchange on the pair ends where the state does not say whether a frame is in flight or the reply window is open: a free
value says which (log 19). -/
def exchangeEnds (free : Nat) (frame : Ending) : Ending := if Config.stopFindsWindowOpen free then .windowClosed else frame

/-- R93 step 1: the part stops driving the pair: a frame is cut off with no abort, and an open reply window is closed. -/
def cutWire (n : Nr) (s : State) : State :=
  let l := s.lines.get n
  match l.wire with
  | .audio => s.setLine n { l with wire := .undriven, ending := .cutOff }
  | .exchange =>
    let t := s.setLine n { l with wire := .undriven, ending := exchangeEnds s.freeCount .cutOff }
    { t with freeCount := s.freeCount + 1 }
  | _ => s.setLine n { l with wire := .undriven }

/-- The auto-survey timer's run (R97). -/
def autoSurveyRun : Nat := 1000

/-- R93: the line enters FAULT. -/
def enterFault (n : Nr) (s : State) : State :=
  let silent := allSilent n (setLineState n .fault (cutWire n s))
  let x := silent.lines.get n
  let timed := if x.settings.autoSurvey then silent.setLine n { x with autoTimer := some (silent.clock + autoSurveyRun) }
               else silent
  reportLine n (s.lines.get n).state .lfault timed

/-- R93: a line in STARTING or RUNNING with LFAULT ACTIVE goes on to FAULT. -/
def faultIfActive (n : Nr) (s : State) : State :=
  let l := s.lines.get n
  if l.lfault.level ∧ (l.state = .starting ∨ l.state = .running) then enterFault n s else s

/-- R88, R89: a cycle of RUNNING begins: its AUDIO frame carries the block. -/
def beginCycle (n : Nr) (f : AudioFrame) (s : State) : State :=
  s.setLine n { s.lines.get n with wire := .audio, audioFrame := some f, downFrame := none, poll := none }

/-- R89, R92, R96: a line that has entered RUNNING at a boundary goes on to FAULT, or begins its first cycle with the block handed
there. -/
def runLine (n : Nr) (f : AudioFrame) (s : State) : State :=
  if (s.lines.get n).lfault.level then enterFault n s else beginCycle n f s

/-- R92: the starting count has reached 10 at a boundary, where the block is handed: the line enters RUNNING. -/
def startDone (n : Nr) (f : AudioFrame) (s : State) : State :=
  let t := allAbsent n s
  let u := setLineState n .running (t.setPost n (t.posts.get n).restartPolls)
  runLine n f (reportLine n .starting .startDone u)

/-! ### LFAULT (R95) -/

/-- R95: one sample of an input with its filtered level, and whether the level changes: two consecutive samples that differ. -/
def FilteredLevel.sample (f : FilteredLevel) (high : Bool) : FilteredLevel × Bool :=
  if high = f.level then ({ f with run := 0 }, false)
  else if f.run = 1 then ({ level := high, run := 0 }, true)
  else ({ f with run := f.run + 1 }, false)

/-- R95: one sample of LFAULTn. -/
def lfaultSample (n : Nr) (s : State) (high : Bool) : State :=
  let r := (s.lines.get n).lfault.sample high
  let t := s.setLine n { s.lines.get n with lfault := r.1 }
  if r.2 then faultIfActive n t else t

/-! ### The cycle's exchange and the reply window (R88, R90) -/

/-- R88: the AUDIO frame of the cycle ends; the down message and the poll are chosen and sent. -/
def audioDone (n : Nr) (s : State) : State :=
  let l := s.lines.get n
  if l.state = .running ∧ l.wire = .audio then
    let c := chooseDown n s
    let p := (c.1.posts.get n).choosePoll
    let t := c.1.setPost n p.1
    t.setLine n { t.lines.get n with wire := .exchange, downFrame := c.2, poll := some p.2 }
  else s

/-- R90: an outcome added to its tally. -/
def Tallies.add (t : Tallies) : WindowOutcome → Tallies
  | .good => { t with good := t.good + 1 }
  | .noReply => { t with noReply := t.noReply + 1 }
  | .crc => { t with crc := t.crc + 1 }
  | .abort => { t with abort := t.abort + 1 }
  | .overlength => { t with overlength := t.overlength + 1 }
  | .wrongAddress => { t with wrongAddress := t.wrongAddress + 1 }

/-- R87, R90: the reply window ends; its outcome is tallied and handed to the post table. -/
def windowEnds (n : Nr) (bits : List Bool) (s : State) : State :=
  let l := s.lines.get n
  match l.poll with
  | none => s
  | some poll =>
    if l.state = .running ∧ l.wire = .exchange then
      let r := windowOutcome poll.address.val bits
      let t := s.setLine n { l with wire := .flags, ending := .complete, tallies := l.tallies.add r.1 }
      takeOutcome n poll r.1 r.2 t
    else s

/-- R88, R96: a cycle of RUNNING is whole before the boundary at which it ends. What no command has told of comes first: the end of
its AUDIO frame with the choices made there, and the end of its reply window, in which no bit has come (log 47). -/
def finishCycle (n : Nr) (s : State) : State := windowEnds n [] (audioDone n s)

/-! ### The survey unit (chapter 7) -/

/-- R128: the cable positions of the posts of a line. -/
def PostTable.positions (t : PostTable) : List (Nat × Nat) :=
  addresses.filterMap fun a => if a.val = 0 then none else (t.node a).position.map fun p => (a.val, p)

/-- The measuring timer's run (R128). -/
def measuringRun : Nat := 40

/-- How far into MEASURING the step is launched (R129). -/
def quietRun : Nat := 20

/-- R96, R128: a survey begins MEASURING and the line enters SURVEY. -/
def beginMeasuring (n : Nr) (s : State) : State :=
  let l := s.lines.get n
  let u := s.surveys.get n
  let t := s.setLine n { l with wire := .survey, autoTimer := none }
  let measuring := (setLineState n .survey t).setSurvey n
    { u with state := .measuring, positions := (s.posts.get n).positions, timer := some (s.clock + measuringRun),
             launch := some (s.clock + quietRun) }
  reportLine n l.state (if u.cause = .autoSurvey then .autoSurvey else .request) measuring

/-- R127, R128: the unit takes a cause, the settings in force and the return state. -/
def prepareSurvey (n : Nr) (state : SurveyState) (cause : SurveyCause) (s : State) : State :=
  let l := s.lines.get n
  s.setSurvey n { s.surveys.get n with state := state, cause := cause, velocity := l.settings.velocity,
                                       threshold := l.settings.threshold, returnTo := l.state }

/-- R96, R128: a WAITING survey begins at a block boundary; in FAULT its return state becomes FAULT, and not before (log 45). -/
def waitingBegins (n : Nr) (s : State) : State :=
  let u := s.surveys.get n
  beginMeasuring n (s.setSurvey n { u with returnTo := if (s.lines.get n).state = .fault then .fault else u.returnTo })

/-- R97: the auto-survey timer expires in FAULT. -/
def autoSurveyExpires (n : Nr) (s : State) : State :=
  let l := s.lines.get n
  match l.autoTimer with
  | none => s
  | some deadline =>
    let t := (s.at_ deadline).setLine n { l with autoTimer := none }
    if l.state = .fault ∧ (s.surveys.get n).state = .idle then beginMeasuring n (prepareSurvey n .measuring .autoSurvey t) else t

/-- A sample of the pair in 1/65536 of the step's height from the idle level, as a tap: less the step, in 1/128 of it, rounded
with halves away from zero, clamped to -127..127 (R129). -/
def tapOf (sample : Int) : Int :=
  let d := sample - 65536
  let v : Int := if d < 0 then -(((d.natAbs + 256) / 512 : Nat) : Int) else (((d.natAbs + 256) / 512 : Nat) : Int)
  if 127 < v then 127 else if v < -127 then -127 else v

/-- The tap memory's size (R129). -/
def tapCount : Nat := 2048

/-- Samples as the taps other than 0, by number in rising order. -/
def tapsFrom : Nat → List Int → List (Nat × Int)
  | _, [] => []
  | k, x :: rest => if tapOf x = 0 then tapsFrom (k + 1) rest else (k, tapOf x) :: tapsFrom (k + 1) rest

/-- R129: the step is launched 20 ms into MEASURING, and the taps are captured. Once it has been launched there is no such event
(log 5). -/
def launchStep (n : Nr) (samples : List Int) (s : State) : State :=
  let u := s.surveys.get n
  match u.state, u.launch with
  | .measuring, some moment => (s.at_ moment).setSurvey n { u with taps := tapsFrom 0 (samples.take tapCount), launch := none }
  | _, _ => s

/-- R129: the launch that no command has told of, with samples that are free (log 43). -/
def launchUntold (n : Nr) (s : State) : State :=
  if (s.surveys.get n).launch = none then s
  else { launchStep n ((List.range tapCount).map (Config.surveySample s.freeCount)) s with freeCount := s.freeCount + 1 }

/-- A run of taps as the scan finds it: the next tap it may continue over, its sign, and its largest tap (R130). -/
structure TapRun where
  next : Nat
  positive : Bool
  tap : Nat
  magnitude : Nat
  deriving DecidableEq, Repr

/-- R130: the runs of taps at or above the threshold, in ascending order; taps that are not listed are 0 and end a run. -/
def scanRuns (threshold : Nat) : Option TapRun → List (Nat × Int) → List TapRun
  | none, [] => []
  | some r, [] => [r]
  | cur, (k, v) :: rest =>
    if v.natAbs < threshold then
      match cur with
      | none => scanRuns threshold none rest
      | some r => r :: scanRuns threshold none rest
    else
      let fresh : TapRun := ⟨k + 1, decide (0 < v), k, v.natAbs⟩
      match cur with
      | none => scanRuns threshold (some fresh) rest
      | some r =>
        if r.next = k ∧ r.positive = decide (0 < v) then
          scanRuns threshold (some (if r.magnitude < v.natAbs then fresh else { r with next := k + 1 })) rest
        else r :: scanRuns threshold (some fresh) rest

/-- R131: the distance of a reflection, in decimetres. -/
def distanceOf (tap velocity : Nat) : Nat := (tap * velocity * 2998 + 10000) / 20000

/-- R131: the better of two posts: the higher position, and the lower address on equal positions. -/
def betterPost (best : Option (Nat × Nat)) (p : Nat × Nat) : Option (Nat × Nat) :=
  match best with
  | none => some p
  | some b => if b.2 < p.2 ∨ (b.2 = p.2 ∧ p.1 < b.1) then some p else some b

/-- R131: the nearest post of a distance: its copied position is the highest not greater than it. -/
def nearestPost (positions : List (Nat × Nat)) (distance : Nat) : Option Nat :=
  (((positions.filter fun p => decide (p.2 ≤ distance)).foldl betterPost none).map (·.1))

/-- R130, R131: the reflection record of a run. -/
def SurveyUnit.record (u : SurveyUnit) (r : TapRun) : Reflection :=
  let d := distanceOf r.tap u.velocity
  { tap := r.tap, kind := if r.positive then .opened else .short, magnitude := r.magnitude, distance := d,
    nearest := nearestPost u.positions d }

/-- R130: the records of the first four runs. -/
def SurveyUnit.records (u : SurveyUnit) : List Reflection := ((scanRuns u.threshold none u.taps).take 4).map u.record

/-- R132, R133, R134: a survey ends: its result replaces the last one, SURVEY_DONE is reported, and the unit is IDLE. -/
def endSurvey (n : Nr) (outcome : SurveyOutcome) (records : List Reflection) (s : State) : State :=
  let u := s.surveys.get n
  let result : SurveyResult := { outcome := outcome, cause := u.cause, returnTo := u.returnTo, velocity := u.velocity,
                                 threshold := u.threshold, records := records }
  (s.setSurvey n { u with state := .idle, timer := none, launch := none, last := some result }).report .line
    (.surveyDone n outcome u.cause u.velocity u.threshold records)

/-- R96, R132: a survey that came from OFF or FAULT returns the line at its end. -/
def surveyReturns (n : Nr) (returnTo : LineState) (s : State) : State :=
  if returnTo = .running then s
  else
    reportLine n .survey .surveyEnd
      (setLineState n returnTo (s.setLine n { s.lines.get n with wire := .undriven }))

/-- R132: the measuring timer expires, after the launch of the step (R129). -/
def measuringExpires (n : Nr) (s : State) : State :=
  let u := s.surveys.get n
  match u.state, u.timer with
  | .measuring, some deadline =>
    let t := (launchUntold n s).at_ deadline
    surveyReturns n u.returnTo (endSurvey n .complete (t.surveys.get n).records t)
  | _, _ => s

/-- R96, R132: a line in SURVEY whose survey has ended returns to RUNNING at a block boundary, where the block is handed. -/
def returnToRunning (n : Nr) (f : AudioFrame) (s : State) : State :=
  runLine n f (reportLine n .survey .surveyEnd (setLineState n .running s))

/-! ### A block boundary (R44, R61, R88) -/

/-- R60: CLIPPED falls at the end of a block in which nothing was clamped. -/
def settleClip (n : Nr) (s : State) : State :=
  if (s.mixers.get n).clamped then s else s.setCond (.clipped n) false

/-- R44: the mixer begins a block: the settings are taken into use and LIVE is noted. -/
def beginBlock (n : Nr) (s : State) : State :=
  let m := s.mixers.get n
  s.setMixer n { m with inUse := BlockSettings.of m.settings, liveNoted := isLive s n, block := [], clamped := false }

/-- R54, R70: the duck step, and its DUCKED notice. -/
def duckStep (n : Nr) (s : State) : State :=
  let r := (s.mixers.get n).duckStep
  let t := s.setMixer n r.1
  if r.2 then duckedNotice n t else t

/-- R88, R89, R92, R96, R128, R132: the line's side of a boundary: the sequence advances, and the line does what is due there. In
RUNNING a cycle carries the block, or a WAITING survey begins, as it does in FAULT; in STARTING the boundary is counted, and at 10 the
line enters RUNNING; in SURVEY a line whose survey has ended returns to RUNNING. A block that is not carried is discarded. -/
def lineBoundary (n : Nr) (block : List OutFrame) (s : State) : State :=
  let l := { s.lines.get n with sequence := (s.lines.get n).sequence + 1 }
  let f : AudioFrame := ⟨l.sequence, block⟩
  let t := s.setLine n l
  match l.state with
  | .off => t
  | .starting =>
    if l.started = false then s.setLine n { l with started := true }
    else if l.startCount < 9 then s.setLine n { l with startCount := l.startCount + 1 }
    else startDone n f (s.setLine n { l with startCount := 10 })
  | .running => if (s.surveys.get n).state = .waiting then waitingBegins n t else beginCycle n f t
  | .survey => if (s.surveys.get n).state = .idle then returnToRunning n f t else t
  | .fault => if (s.surveys.get n).state = .waiting then waitingBegins n t else t

/-- R44, R61, R88: a block boundary of mixer `n`: the cycle in progress is whole, the block is handed over, and the next begins. -/
def boundary (n : Nr) (s : State) : State :=
  let t := finishCycle n s
  let begun := beginVoice n (beginBlock n (settleClip n t))
  lineBoundary n (t.mixers.get n).block (duckStep n (fadeStep n (applyUnfaded n begun)))

/-- The sample frames of a block (R44). -/
def blockSize : Nat := 96

/-- R44: a block that is whole ends. While it has sample instants left this is no such event (log 5). -/
def blockEnds (n : Nr) (s : State) : State := if blockSize ≤ (s.mixers.get n).block.length then boundary n s else s

/-! ### The rows that stand for one boundary (log 18) -/

/-- R92: the boundary at which the starting count reaches 10. While no such boundary is due this is no such event (log 5). -/
def startCompletes (n : Nr) (s : State) : State :=
  let l := s.lines.get n
  if l.state = .starting ∧ l.started = true ∧ 9 ≤ l.startCount then blockEnds n s else s

/-- R128: the boundary at which a WAITING survey begins. While no such boundary is due this is no such event (log 5). -/
def surveyBegins (n : Nr) (s : State) : State :=
  let l := s.lines.get n
  if (s.surveys.get n).state = .waiting ∧ (l.state = .running ∨ l.state = .fault) then blockEnds n s else s

/-- R96, R132: the boundary at which a line returns from its survey to RUNNING. While no such boundary is due this is no such event
(log 5). -/
def surveyGoesBack (n : Nr) (s : State) : State :=
  if (s.lines.get n).state = .survey ∧ (s.surveys.get n).state = .idle then blockEnds n s else s

/-! ### A sample instant (R42, R44, R72) -/

/-- What the sample instants before this one have brought to its end in field `n`, where no command has told of it: a note, a
voice, a block (R44, R72; log 4). -/
def settleField (s : State) (n : Nr) : State := blockEnds n (voiceEnds n (noteEnds n s))

/-- What the sample instants before this one have brought to its end, where no command has told of it: the silence timers, and what
`settleField` gives (R42, R44, R72; log 4). -/
def settled (s : State) : State :=
  Nr.all.foldl settleField (silenceExpires .ann (Nr.all.foldl (fun t n => silenceExpires (.prog n) t) s))

/-- R43, R47, R48, R59: what every field does in a sample instant, and the silence timers' run. -/
def instant (s : State) : State :=
  let live := s.intake.live
  Nr.all.foldl (fun t n => fieldInstant live n t) { s with intake := s.intake.instant }

/-! ### Requests -/

/-- R99: the line's present state. -/
def lineReply (s : State) (n : Nr) : ReplyBody :=
  let l := s.lines.get n
  .line { state := l.state, lfault := l.lfault.level, lineUp := State.level s (.lineUp n),
          surveyWaiting := (s.surveys.get n).state == .waiting, autoLeft := s.left l.autoTimer, sequence := l.sequence,
          tallies := l.tallies }

/-- LINE_SET (R99). -/
def lineSet (field : Nat) (settings : LineSettings) (s : State) : Answer :=
  numbered field fun n =>
    if LineSettings.valid settings then
      let l := s.lines.get n
      let t := s.setLine n { l with settings := settings, autoTimer := if settings.autoSurvey then l.autoTimer else none }
      .ok (t, lineReply t n)
    else .error .badValue

/-- R91: the line enters STARTING. -/
def enterStarting (n : Nr) (s : State) : State :=
  let l := s.lines.get n
  let t := s.setLine n { l with started := false, startCount := 0, autoTimer := none, wire := .flags }
  faultIfActive n (reportLine n l.state .request (setLineState n .starting t))

/-- LINE_START (R91). -/
def lineStart (field : Nat) (s : State) : Answer :=
  numbered field fun n =>
    let l := s.lines.get n
    if l.state = .off ∨ (l.state = .fault ∧ l.lfault.level = false ∧ (s.surveys.get n).state ≠ .waiting) then
      .ok (enterStarting n s, .empty)
    else .error .wrongState

/-- R94 step 1: what is on the pair ends: an AUDIO frame is completed, a DOWN or POLL frame aborted, an open window closed. The pair is
undriven at once, also while an AUDIO frame completes; a LINE_START in that time drives flags (log 46). -/
def stopWire (n : Nr) (s : State) : State :=
  let l := s.lines.get n
  match l.wire with
  | .audio => s.setLine n { l with wire := .undriven, ending := .complete }
  | .exchange =>
    let t := s.setLine n { l with wire := .undriven, ending := exchangeEnds s.freeCount .aborted }
    { t with freeCount := s.freeCount + 1 }
  | _ => s.setLine n { l with wire := .undriven }

/-- R94 step 2: a survey WAITING or MEASURING is aborted (R133), and the auto-survey timer cancelled. -/
def stopSurvey (n : Nr) (s : State) : State :=
  let t := if (s.surveys.get n).state = .idle then s else endSurvey n .aborted [] s
  t.setLine n { t.lines.get n with autoTimer := none }

/-- R94 step 4: every message held for the line is dropped, in queue order. -/
def dropAll (n : Nr) (s : State) : State := (s.posts.get n).queue.foldl (fun t e => dropEntry n .lineStopped e t) s

/-- R94: the line is stopped. -/
def stopLine (n : Nr) (s : State) : State :=
  let previous := (s.lines.get n).state
  let off := setLineState n .off (stopSurvey n (stopWire n s))
  reportLine n previous .request (allAbsent n (dropAll n off))

/-- LINE_STOP (R94). -/
def lineStop (field : Nat) (s : State) : Answer :=
  numbered field fun n =>
    if (s.lines.get n).state = .off then .error .wrongState else .ok (stopLine n s, .empty)

/-- LINE_SURVEY with operation START (R127). -/
def surveyStart (field : Nat) (s : State) : Answer :=
  numbered field fun n =>
    let l := s.lines.get n
    let body := ReplyBody.surveyStarted (if l.state = .running then .atBoundary else .atOnce) l.settings.velocity
      l.settings.threshold
    if (s.surveys.get n).state ≠ .idle then .error .wrongState
    else
      match l.state with
      | .off => .ok (beginMeasuring n (prepareSurvey n .measuring .request s), body)
      | .fault => .ok (beginMeasuring n (prepareSurvey n .measuring .request s), body)
      | .running =>
        if (s.screens.get n).state.active then .error .wrongState else .ok (prepareSurvey n .waiting .request s, body)
      | _ => .error .wrongState

/-- LINE_SURVEY with operation READ (R134). -/
def surveyRead (field : Nat) (s : State) : Answer :=
  numbered field fun n =>
    let u := s.surveys.get n
    let current := match u.state with
      | .idle => none
      | .waiting => some (u.cause, u.velocity, u.threshold, measuringRun)
      | .measuring => some (u.cause, u.velocity, u.threshold, s.left u.timer)
    .ok (s, .survey u.state current u.last)

/-! ### Meanings -/

/-- SAMPLE_INSTANT (R48): what the instants before it have brought to its end comes first. -/
def execSampleInstant (s : State) : Host.Outcome State Fault Refusal := .next (instant (settled s)).kick

/-- BLOCK_BOUNDARY (R44). -/
def execBlockBoundary (n : Nr) (s : State) : Host.Outcome State Fault Refusal := .next (blockEnds n s).kick

/-- LINE_SET (R99). -/
def execLineSet (r : Req) (field : Nat) (settings : LineSettings) (s : State) : Host.Outcome State Fault Refusal :=
  .next (s.serve 0x38#8 r true (lineSet field settings)).kick

/-- LINE_START (R91). -/
def execLineStart (r : Req) (field : Nat) (s : State) : Host.Outcome State Fault Refusal :=
  .next (s.serve 0x39#8 r true (lineStart field)).kick

/-- LINE_STOP (R94). -/
def execLineStop (r : Req) (field : Nat) (s : State) : Host.Outcome State Fault Refusal :=
  .next (s.serve 0x3A#8 r true (lineStop field)).kick

/-- STARTING_COMPLETE (R92): the boundary of field `n` at which the starting count reaches 10. -/
def execStartingComplete (n : Nr) (s : State) : Host.Outcome State Fault Refusal := .next (startCompletes n s).kick

/-- LFAULT_LEVEL_CHANGE (R95): the samples run through the filter, and each change of the level acts on the line. -/
def execLfaultLevelChange (n : Nr) (samples : List Bool) (s : State) : Host.Outcome State Fault Refusal :=
  .next (samples.foldl (lfaultSample n) s).kick

/-- AUTO_SURVEY_EXPIRY (R97). -/
def execAutoSurveyExpiry (n : Nr) (s : State) : Host.Outcome State Fault Refusal := .next (autoSurveyExpires n s).kick

/-- AUDIO_FRAME_DONE (R88). -/
def execAudioFrameDone (n : Nr) (s : State) : Host.Outcome State Fault Refusal := .next (audioDone n s).kick

/-- REPLY_WINDOW_END (R90): the bits of the window, one for each 0.25 µs. -/
def execReplyWindowEnd (n : Nr) (bits : List Bool) (s : State) : Host.Outcome State Fault Refusal := .next (windowEnds n bits s).kick

/-- LINE_SURVEY with operation START (R127). -/
def execLineSurveyStart (r : Req) (field : Nat) (s : State) : Host.Outcome State Fault Refusal :=
  .next (s.serve 0x3B#8 r true (surveyStart field)).kick

/-- LINE_SURVEY with operation READ (R134). -/
def execLineSurveyRead (r : Req) (field : Nat) (s : State) : Host.Outcome State Fault Refusal :=
  .next (s.serve 0x3B#8 r true (surveyRead field)).kick

/-- SURVEY_BEGIN_AT_BOUNDARY (R128): the boundary of field `n` at which its WAITING survey begins. -/
def execSurveyBeginAtBoundary (n : Nr) (s : State) : Host.Outcome State Fault Refusal := .next (surveyBegins n s).kick

/-- SURVEY_STEP_LAUNCH (R129). -/
def execSurveyStepLaunch (n : Nr) (samples : List Int) (s : State) : Host.Outcome State Fault Refusal :=
  .next (launchStep n samples s).kick

/-- SURVEY_COMPLETE (R132). -/
def execSurveyComplete (n : Nr) (s : State) : Host.Outcome State Fault Refusal := .next (measuringExpires n s).kick

/-- SURVEY_RETURN_TO_RUNNING (R96): the boundary of field `n` at which its line returns to RUNNING. -/
def execSurveyReturnToRunning (n : Nr) (s : State) : Host.Outcome State Fault Refusal := .next (surveyGoesBack n s).kick

end Sys2Proof.Machine
end

