-- ==== Sys2Proof/Machine/Orders.lean ====
section
/-! DEFINITION. The menu, the stations, ordering, the booth's steps on orders, and the timers of live orders (chapters 10
and 11): the meanings of their rows. -/

namespace Sys2Proof.Machine

/-! ### The menu (section 10.1) -/

/-- An item takes its place by code (R165). -/
def putItem (i : MenuItem) : List MenuItem → List MenuItem
  | [] => [i]
  | j :: rest => if i.code < j.code then i :: j :: rest else j :: putItem i rest

/-- Items entered into a menu one after another (R165). -/
def enterItems (menu items : List MenuItem) : List MenuItem := items.foldl (fun m i => putItem i m) menu

/-- The menu table's capacity (R164). -/
def menuRoom : Nat := 128

/-- The items one MENU_LOAD carries at most (R165). -/
def itemsPerLoad : Nat := 20

/-- R165 step 2: every item valid, and each of them under a code of its own that is none of `used`. -/
def itemsValid (used : List Nat) (items : List MenuItem) : Bool :=
  items.all MenuItem.valid && freshNumbers used (items.map (·.code))

/-- The menu replaced. -/
def State.setMenu (s : State) (menu : List MenuItem) : State := s.setOrders { s.orders with menu := menu }

/-- MENU_LOAD with operation REPLACE (R165). -/
def menuReplace (count : Nat) (items : List MenuItem) (s : State) : Answer :=
  if within 0 itemsPerLoad count && itemsValid [] items then
    if s.orders.live = [] then .ok (s.setMenu (enterItems [] items), .menuCount items.length) else .error .wrongState
  else .error .badValue

/-- MENU_LOAD with operation APPEND (R165). -/
def menuAppend (count : Nat) (items : List MenuItem) (s : State) : Answer :=
  let menu := s.orders.menu
  if within 1 itemsPerLoad count && itemsValid (menu.map (·.code)) items then
    if s.orders.live ≠ [] then .error .wrongState
    else if menuRoom < menu.length + items.length then .error .full
    else .ok (s.setMenu (enterItems menu items), .menuCount (menu.length + items.length))
  else .error .badValue

/-- MENU_ITEM_SET (R166). -/
def menuItemSet (code price : Nat) (availability : Availability) (s : State) : Answer :=
  if within 1 250 code && within 0 9999 price then
    match s.orders.item code with
    | none => .error .notFound
    | some i =>
      let j := { i with price := price, availability := availability }
      .ok (s.setMenu (s.orders.menu.map fun k => if k.code = code then j else k), .menuItem j)
  else .error .badValue

/-! ### Stations and ordering (sections 10.2 and 10.3) -/

/-- The body of STATION_SET's reply (R167). -/
def stationsReply (s : State) : ReplyBody :=
  let t := s.orders
  .stations { staff := t.staff, backlog := t.backlog, load := .tabulate (stationLoad t), limit := t.limit,
              saturated := State.level s .kitchenSaturated }

/-- STATION_SET (R167): KITCHEN_SATURATED is decided on the new loads and limit. -/
def stationSet (staff : Four Nat) (limit : Nat) (s : State) : Answer :=
  if stationsValid staff limit then
    let t := decideSaturated (s.setOrders { s.orders with staff := staff, limit := limit })
    .ok (t, stationsReply t)
  else .error .badValue

/-- ORDERING_SET (R168). -/
def orderingSet (field : Nat) (isOpen : Bool) (s : State) : Answer :=
  numbered field fun n =>
    let t := setOrdering n isOpen s
    .ok (t, .ordering (t.orders.ordering.get n))

/-! ### Reading orders (R178) -/

/-- An order as ORDER_READ gives it (R178). -/
def orderReadout (s : State) (o : Order) : OrderReadout :=
  { number := o.number, field := o.field, post := o.post.val, side := o.side, lines := o.lines, total := o.total, mode := o.mode,
    state := o.state, sincePlaced := s.elapsed o.placed, sinceState := s.elapsed o.stateEntered, estimate := o.estimate,
    minutes := minutesOf o.estimate, window := o.window, owed := o.owed, reminderSent := o.reminderSent,
    bayEmptyReported := o.bayEmptyReported, work := o.work }

/-- An order number named by a request: BAD_VALUE outside 1-999, NOT_FOUND where no live order carries it (R178, 11.3). -/
def ordered (number : Nat) (s : State) (act : Order → Answer) : Answer :=
  if within 1 999 number then
    match s.orders.find number with
    | none => .error .notFound
    | some o => act o
  else .error .badValue

/-- The reply of an accepted step: the order as it stands after it (11.3). -/
def stepped (number : Nat) (t : State) : Answer :=
  match t.orders.find number with
  | none => .ok (t, .empty)
  | some o => .ok (t, .order (orderReadout t o))

/-- The reply of a step that ends the order: the record as it was removed, its owed notice discarded (11.3, R180; log 38). -/
def endedReply (s : State) (o : Order) : ReplyBody := .order (orderReadout s { o with owed := none })

/-- ORDER_READ (R178). -/
def orderRead (number : Nat) (s : State) : Answer := ordered number s fun o => .ok (s, .order (orderReadout s o))

/-! ### Steps from the booth (section 11.3) -/

/-- An order moved to a state now, its acceptance timer cancelled. -/
def Order.enter (o : Order) (state : OrderState) (clock : Nat) : Order :=
  { o with state := state, stateEntered := clock, acceptance := none }

/-- ORDER_ACCEPT (R183). -/
def orderAccept (number : Nat) (s : State) : Answer :=
  ordered number s fun o =>
    if o.state = .received then stepped number (makeOwed number .accepted (s.setOrder (o.enter .accepted s.clock)))
    else .error .wrongState

/-- ORDER_STAGE with stage PREPARING (R184). -/
def orderPreparing (number : Nat) (s : State) : Answer :=
  ordered number s fun o =>
    if o.state = .accepted then stepped number (makeOwed number .preparing (s.setOrder (o.enter .preparing s.clock)))
    else .error .wrongState

/-- A pickup window queue's capacity (R184, R185). -/
def windowRoom : Nat := 32

/-- The better of two windows: fewer orders, and the lower number among equals. -/
def betterWindow (t : OrderTable) (best : Option Nr) (w : Nr) : Option Nr :=
  if windowRoom ≤ (t.windows.get w).length then best
  else
    match best with
    | none => some w
    | some b => if (t.windows.get w).length < (t.windows.get b).length then some w else some b

/-- R184: the window of a READY order, none where there is no room. -/
def chooseWindow (t : OrderTable) (window : Nat) : Option Nr :=
  match Nr.ofNat? window with
  | some w => if windowRoom ≤ (t.windows.get w).length then none else some w
  | none => Nr.all.foldl (betterWindow t) none

/-- The reminder timer's run (R191). -/
def reminderRun : Nat := 600000

/-- The stale timer's run (R191). -/
def staleRun : Nat := 1800000

/-- An order placed READY at a window with its timers started (R184 steps 2 to 4). -/
def Order.placedAt (o : Order) (w : Nr) (clock : Nat) : Order :=
  { o.enter .ready clock with window := some w, reminder := some (clock + reminderRun), stale := some (clock + staleRun) }

/-- R184: an order goes READY at a window. -/
def placeReady (o : Order) (w : Nr) (s : State) : State :=
  let t := subWork o.work s
  let p := o.placedAt w t.clock
  let u := t.setOrders { t.orders with windows := t.orders.windows.set w (t.orders.windows.get w ++ [o.number]) }
  makeOwed o.number p.latest (u.setOrder p)

/-- ORDER_STAGE with stage READY (R184): the window is chosen first. -/
def orderReady (number window : Nat) (s : State) : Answer :=
  if within 0 4 window then
    ordered number s fun o =>
      if o.state = .accepted ∨ o.state = .preparing then
        match chooseWindow s.orders window with
        | none => .error .full
        | some w => stepped number (placeReady o w s)
      else .error .wrongState
  else .error .badValue

/-- ORDER_COLLECTED (R185). -/
def orderCollected (number : Nat) (s : State) : Answer :=
  ordered number s fun o =>
    if o.state = .ready then .ok (endOrder o .collected none s, endedReply s o) else .error .wrongState

/-- ORDER_CANCEL (R186). -/
def orderCancel (number : Nat) (reason : BoothReason) (s : State) : Answer :=
  ordered number s fun o => .ok (endOrder o .booth (some reason) s, endedReply s o)

/-! ### Timers of a live order (R181, R191, R192) -/

/-- R181: the acceptance timer expires. -/
def acceptanceExpires (number : Nat) (s : State) : State :=
  match s.orders.find number with
  | none => s
  | some o =>
    match o.acceptance with
    | none => s
    | some deadline => endOrder o .noKitchen none (s.at_ deadline)

/-- R191: the reminder timer expires. -/
def reminderExpires (number : Nat) (s : State) : State :=
  match s.orders.find number with
  | none => s
  | some o =>
    match o.reminder with
    | none => s
    | some deadline =>
      makeOwed number .reminder ((s.at_ deadline).setOrder { o with reminder := none, reminderSent := true })

/-- R191: the stale timer expires. -/
def staleExpires (number : Nat) (s : State) : State :=
  match s.orders.find number with
  | none => s
  | some o =>
    match o.stale with
    | none => s
    | some deadline =>
      ((s.at_ deadline).setOrder { o with stale := none }).report .order
        (.orderStale o.number o.field o.post.val o.side o.mode o.window (staleRun / 1000))

/-- R192: the bay-empty timer expires. -/
def bayEmptyExpires (number : Nat) (s : State) : State :=
  match s.orders.find number with
  | none => s
  | some o =>
    match o.bayEmpty with
    | none => s
    | some deadline =>
      ((s.at_ deadline).setOrder { o with bayEmpty := none, bayEmptyReported := true }).report .order
        (.orderBayEmpty o.number o.field o.post.val o.side o.state o.mode)

/-! ### Meanings -/

/-- MENU_LOAD with operation REPLACE (R165): a body whose length does not match its count is refused with BAD_LENGTH. -/
def execMenuLoadReplace (r : Req) (count : Nat) (items : List MenuItem) (s : State) : Host.Outcome State Fault Refusal :=
  .next (s.serve 0x50#8 r (count == items.length) (menuReplace count items)).kick

/-- MENU_LOAD with operation APPEND (R165): a body whose length does not match its count is refused with BAD_LENGTH. -/
def execMenuLoadAppend (r : Req) (count : Nat) (items : List MenuItem) (s : State) : Host.Outcome State Fault Refusal :=
  .next (s.serve 0x50#8 r (count == items.length) (menuAppend count items)).kick

/-- MENU_ITEM_SET (R166). -/
def execMenuItemSet (r : Req) (code price : Nat) (availability : Availability) (s : State) : Host.Outcome State Fault Refusal :=
  .next (s.serve 0x51#8 r true (menuItemSet code price availability)).kick

/-- STATION_SET (R167). -/
def execStationSet (r : Req) (staff : Four Nat) (limit : Nat) (s : State) : Host.Outcome State Fault Refusal :=
  .next (s.serve 0x52#8 r true (stationSet staff limit)).kick

/-- ORDERING_SET (R168). -/
def execOrderingSet (r : Req) (field : Nat) (isOpen : Bool) (s : State) : Host.Outcome State Fault Refusal :=
  .next (s.serve 0x53#8 r true (orderingSet field isOpen)).kick

/-- ORDER_ACCEPT (R183). -/
def execOrderAccept (r : Req) (number : Nat) (s : State) : Host.Outcome State Fault Refusal :=
  .next (s.serve 0x54#8 r true (orderAccept number)).kick

/-- ORDER_STAGE with stage PREPARING (R184). -/
def execOrderStagePreparing (r : Req) (number : Nat) (s : State) : Host.Outcome State Fault Refusal :=
  .next (s.serve 0x55#8 r true (orderPreparing number)).kick

/-- ORDER_STAGE with stage READY (R184). -/
def execOrderStageReady (r : Req) (number window : Nat) (s : State) : Host.Outcome State Fault Refusal :=
  .next (s.serve 0x55#8 r true (orderReady number window)).kick

/-- ORDER_COLLECTED (R185). -/
def execOrderCollected (r : Req) (number : Nat) (s : State) : Host.Outcome State Fault Refusal :=
  .next (s.serve 0x56#8 r true (orderCollected number)).kick

/-- ORDER_CANCEL (R186). -/
def execOrderCancel (r : Req) (number : Nat) (reason : BoothReason) (s : State) : Host.Outcome State Fault Refusal :=
  .next (s.serve 0x57#8 r true (orderCancel number reason)).kick

/-- ORDER_READ (R178). -/
def execOrderRead (r : Req) (number : Nat) (s : State) : Host.Outcome State Fault Refusal :=
  .next (s.serve 0x58#8 r true (orderRead number)).kick

/-- ACCEPTANCE_TIMER_EXPIRY (R181). -/
def execAcceptanceTimerExpiry (number : Nat) (s : State) : Host.Outcome State Fault Refusal :=
  .next (acceptanceExpires number s).kick

/-- REMINDER_TIMER_EXPIRY (R191). -/
def execReminderTimerExpiry (number : Nat) (s : State) : Host.Outcome State Fault Refusal := .next (reminderExpires number s).kick

/-- STALE_TIMER_EXPIRY (R191). -/
def execStaleTimerExpiry (number : Nat) (s : State) : Host.Outcome State Fault Refusal := .next (staleExpires number s).kick

/-- BAY_EMPTY_TIMER_EXPIRY (R192). -/
def execBayEmptyTimerExpiry (number : Nat) (s : State) : Host.Outcome State Fault Refusal := .next (bayEmptyExpires number s).kick

end Sys2Proof.Machine
end

