-- ==== Sys2Proof/Machine/Link.lean ====
section
/-! DEFINITION. The control link's own rows (chapter 12): bytes, frames and the gap timer, the end of a sent frame, and the requests
that belong to the link. -/

namespace Sys2Proof.Machine

/-! ### The receiver (R193, R195, R207) -/

/-- R195: whether the next byte is the last check byte of the frame being received. -/
def Receiver.lastByteNext (x : Receiver) : Bool := x.state == .frame && x.kept.length + 1 == frameSize x.kept

/-- R195: the last check byte of a frame arrives. In any other state of the receiver this is no such event (log 5). -/
def frameArrives (b : Byte) (s : State) : State :=
  if s.link.rx.lastByteNext then s.setLink (Link.byte s.link s.clock b) else s

/-- R195, R207: a byte arrives. -/
def byteArrives (b : Byte) (s : State) : State := s.setLink (Link.byte s.link s.clock b)

/-- R195: 50 ms pass without a byte while a frame is being received. -/
def gapExpires (s : State) : State :=
  match s.link.rx.gap with
  | none => s
  | some deadline =>
    let t := s.at_ deadline
    t.setLink (Link.discardFrame t.link t.clock)

/-- The event that a character on RXD is (R193). -/
def Character.event : Character → Instr
  | .byte b => .linkByteReceived b
  | .framingError => .framingError

/-- The events that the bits on RXD are (R193). -/
def rxdEvents (bits : List Bool) : List Instr := (characters bits).map Character.event

/-- R193, R195: a character with a framing error: it discards the frame being received, and is ignored otherwise. -/
def framingFails (s : State) : State :=
  match s.link.rx.state with
  | .length => s.setLink (Link.discardFrame s.link s.clock)
  | .frame => s.setLink (Link.discardFrame s.link s.clock)
  | _ => s

/-! ### The transmitter (R197, R206, R207) -/

/-- Whether a reply is the OK reply of an accepted RESTART (R206). -/
def Reply.ofRestart (r : Reply) : Bool := r.kind == replyKind 0x02#8 && r.result == .ok

/-- R197, R206, R207: the transmitter finishes the frame it is sending. -/
def Link.sent (l : Link) : Link :=
  match l.tx with
  | .idle => l
  | .reply r =>
    { l with tx := .idle, requests := l.requests.filter fun q => q.reply != some r,
             restartDue := l.restartDue || (l.restart.isSome && r.ofRestart) }
  | .busy r => { l with tx := .idle, busy := l.busy.filter fun b => b != r }
  | .report q =>
    match q.report with
    | .started _ => { l with tx := .idle, rx := if l.rx.state = .startUp then ⟨.hunt, [], none⟩ else l.rx }
    | _ => { l with tx := .idle }

/-- R197: a frame ends. A transmitter that is idle while something waits takes it first (log 12). -/
def frameEnds (s : State) : State := s.setLink (Link.sent (Link.kick s.link))

/-! ### Requests of the link -/

/-- UNKNOWN_REQUEST (R196): the request in turn, of a kind that is no request kind. A kind of the table is not this event. -/
def unknownKind (tag kind : Byte) (s : State) : State :=
  if knownKinds.contains kind then s else s.serve kind ⟨tag, .fits⟩ true fun _ => .error .unknownRequest

/-- IDENTIFY (R205). -/
def identify (s : State) : Answer := .ok (s, .identity 0x2C7A 460 1 2 Config.serialNumber 4)

/-- LINK_STATUS (R205): the requests in the buffer count the LINK_STATUS itself. -/
def linkStatus (s : State) : Answer :=
  let l := s.link
  .ok (s, .linkStatus l.rate l.discarded l.requests.length l.busy.length l.queue.length l.lost)

/-- The operations of REPORT_MASK (R199). -/
inductive MaskOp where
  | write | set | clear
  deriving DecidableEq, Repr

/-- R199: a set after an operation. -/
def MaskOp.apply {w : Nat} (op : MaskOp) (old given : BitVec w) : BitVec w :=
  match op with
  | .write => given
  | .set => old ||| given
  | .clear => old &&& ~~~given

/-- The operation byte of REPORT_MASK (R199). -/
def MaskOp.code : MaskOp → Byte
  | .write => 0x00#8
  | .set => 0x01#8
  | .clear => 0x02#8

/-- The body of a REPORT_MASK (R199). -/
def maskBody (op : MaskOp) (selector : Selector) (bits : BitVec 40) : List Byte :=
  match selector with
  | .sources => 0x00#8 :: op.code :: lowBytes 1 bits.toNat
  | .rise => 0x01#8 :: op.code :: lowBytes 5 bits.toNat
  | .fall => 0x02#8 :: op.code :: lowBytes 5 bits.toNat

/-- R199: the selected set of the link changed. SOURCES reads the operand's low byte. -/
def Link.mask (l : Link) (selector : Selector) (op : MaskOp) (bits : BitVec 40) : Link :=
  match selector with
  | .sources => { l with enables := op.apply l.enables (bits.extractLsb' 0 8) }
  | .rise => { l with rise := op.apply l.rise (bits.extractLsb' 0 38) }
  | .fall => { l with fall := op.apply l.fall (bits.extractLsb' 0 38) }

/-- R199: bit 6 or 7 of the fifth byte of a RISE or FALL set names no condition. -/
def maskBitsValid (selector : Selector) (bits : BitVec 40) : Bool :=
  selector == .sources || !(bits.getLsbD 38 || bits.getLsbD 39)

/-- REPORT_MASK (R199). -/
def reportMask (op : MaskOp) (selector : Selector) (bits : BitVec 40) (s : State) : Answer :=
  if maskBitsValid selector bits then
    let l := Link.mask s.link selector op bits
    .ok (s.setLink l, .masks l.enables l.rise l.fall)
  else .error .badValue

/-- CONDITION_READ (R203): the reply is built, and then every latch it returned set is cleared. -/
def conditionRead (s : State) : Answer :=
  let l := s.link
  .ok (s.setLink { l with latch := 0 }, .conditions l.live l.latch)

/-! ### List reads (R204) -/

/-- An admission as LIST_READ gives it (R145). -/
def admissionReadout (s : State) (a : Admission) : AdmissionReadout :=
  { id := a.id, field := a.field, cls := a.cls, occupants := a.occupants, elapsed := s.elapsed a.arrived,
    left := s.leftSeconds (some a.timer) }

/-- An order of a window queue as LIST_READ gives it (R185). -/
def windowReadout (s : State) (o : Order) : WindowReadout :=
  { number := o.number, field := o.field, post := o.post.val, side := o.side, mode := o.mode, sinceReady := s.elapsed o.stateEntered,
    reminderSent := o.reminderSent }

/-- The announcements: active records in order of grant, then queued records in queue order, each with the time left in the timer's
place (R204, section 4.1). -/
def announcementEntries (s : State) : List ListEntry :=
  (s.announce.active ++ s.announce.queue).map fun a => .announcement { a with timer := none } (s.leftSeconds a.timer)

/-- The entries of a collection in their order; none where the collection is unknown or the parameter outside its range (R204). -/
def entriesOf (s : State) (collection param : Nat) : Option (List ListEntry) :=
  match collection, Nr.ofNat? param with
  | 1, some n => some ((s.screens.get n).cues.map .cue)
  | 2, some n => some (addresses.map fun a => .node (nodeReadout s n a))
  | 3, some n => some ((s.lane n).queue.map fun a => .admission (admissionReadout s a))
  | 4, some n => some ((s.fields.get n).inbound.map fun e => .inbound e.id (s.elapsed e.arrived) (s.leftSeconds (some e.timer)))
  | 6, some n => some ((s.orders.windows.get n).filterMap fun k => (s.orders.find k).map fun o => .window (windowReadout s o))
  | 5, none => if param = 0 then some (s.orders.live.map fun o => .order (orderReadout s o)) else none
  | 7, none => if param = 0 then some (announcementEntries s) else none
  | 8, none => if param = 0 then some (s.orders.menu.map .item) else none
  | _, _ => none

/-- The body of a LIST_READ's reply with `k` of the entries from the start index on (R204). -/
def runBody (collection param start k : Nat) (entries : List ListEntry) : ReplyBody :=
  .list collection param k (if entries.length ≤ start + k then 0xFFFF else start + k) ((entries.drop start).take k)

/-- The bytes a LIST_READ's reply body would take with `k` entries, with its result byte (R204). How many each item takes is open
(log 11). -/
def runSize (collection param start k : Nat) (entries : List ListEntry) : Nat :=
  1 + ((Config.replyItems (runBody collection param start k entries)).map (·.1)).sum

/-- `k` and up to `more` further ones, as long as each further one fits. -/
def growRun (fits : Nat → Bool) : Nat → Nat → Nat
  | 0, k => k
  | more + 1, k => if fits (k + 1) then growRun fits more (k + 1) else k

/-- R204: how many entries a reply returns: as many as asked, fewer where the collection ends or a further entry would take the body
past 512 bytes, and at least one where one exists. -/
def runLength (collection param start count : Nat) (entries : List ListEntry) : Nat :=
  let most := min count (entries.length - start)
  if most = 0 then 0 else growRun (fun k => decide (runSize collection param start k entries ≤ 512)) (most - 1) 1

/-- LIST_READ (R204). -/
def listRead (collection param start count : Nat) (s : State) : Answer :=
  match entriesOf s collection param with
  | none => .error .badValue
  | some entries =>
    if within 0 65534 start && within 1 255 count then
      .ok (s, runBody collection param start (runLength collection param start count entries) entries)
    else .error .badValue

/-! ### Meanings -/

/-- FRAME_RECEIVED (R195). -/
def execFrameReceived (byte : Byte) (s : State) : Host.Outcome State Fault Refusal := .next (frameArrives byte s).kick

/-- LINK_BYTE_RECEIVED (R195, R207). -/
def execLinkByteReceived (byte : Byte) (s : State) : Host.Outcome State Fault Refusal := .next (byteArrives byte s).kick

/-- GAP_TIMER_EXPIRY (R195). -/
def execGapTimerExpiry (s : State) : Host.Outcome State Fault Refusal := .next (gapExpires s).kick

/-- FRAMING_ERROR (R193). -/
def execFramingError (s : State) : Host.Outcome State Fault Refusal := .next (framingFails s).kick

/-- FRAME_SENT (R197, R206, R207). -/
def execFrameSent (s : State) : Host.Outcome State Fault Refusal := .next (frameEnds s).kick

/-- UNKNOWN_REQUEST (R196). -/
def execUnknownRequest (tag kind : Byte) (s : State) : Host.Outcome State Fault Refusal := .next (unknownKind tag kind s).kick

/-- IDENTIFY (R205). -/
def execIdentify (r : Req) (s : State) : Host.Outcome State Fault Refusal := .next (s.serveSpelled 0x01#8 r [] identify).kick

/-- LINK_STATUS (R205). -/
def execLinkStatus (r : Req) (s : State) : Host.Outcome State Fault Refusal := .next (s.serveSpelled 0x06#8 r [] linkStatus).kick

/-- REPORT_MASK with operation WRITE (R199). -/
def execReportMaskWrite (r : Req) (selector : Selector) (bits : BitVec 40) (s : State) : Host.Outcome State Fault Refusal :=
  .next (s.serveSpelled 0x03#8 r (maskBody .write selector bits) (reportMask .write selector bits)).kick

/-- REPORT_MASK with operation SET (R199). -/
def execReportMaskSet (r : Req) (selector : Selector) (bits : BitVec 40) (s : State) : Host.Outcome State Fault Refusal :=
  .next (s.serveSpelled 0x03#8 r (maskBody .set selector bits) (reportMask .set selector bits)).kick

/-- REPORT_MASK with operation CLEAR (R199). -/
def execReportMaskClear (r : Req) (selector : Selector) (bits : BitVec 40) (s : State) : Host.Outcome State Fault Refusal :=
  .next (s.serveSpelled 0x03#8 r (maskBody .clear selector bits) (reportMask .clear selector bits)).kick

/-- CONDITION_READ (R203). -/
def execConditionRead (r : Req) (s : State) : Host.Outcome State Fault Refusal :=
  .next (s.serveSpelled 0x04#8 r [] conditionRead).kick

/-- LIST_READ (R204). -/
def execListRead (r : Req) (collection param start count : Nat) (s : State) : Host.Outcome State Fault Refusal :=
  .next (s.serve 0x05#8 r true (listRead collection param start count)).kick

end Sys2Proof.Machine
end

