-- ==== Sys2Proof/Machine/Restart.lean ====
section
/-! DEFINITION. Resets (R206, R207): power-on, the RESTART requests, and the restart's taking effect, with what each block keeps. -/

namespace Sys2Proof.Machine

/-! ### What a restart leaves of each block -/

/-- The rate the straps select (R193). -/
def Rate.ofStraps : Bool → Bool → Rate
  | false, false => .baud115200
  | false, true => .baud460800
  | true, false => .baud921600
  | true, true => .baud2000000

/-- R28: a timeline after RESTART with scope STATE. -/
def Screen.kept (x : Screen) : Screen :=
  { Screen.reset with state := if x.cues = [] then .empty else .loaded
                      cues := x.cues.map fun c => { c with fired := false }
                      settings := x.settings }

/-- R40: the booth lines after RESTART with scope STATE. -/
def OutputUnit.kept (u : OutputUnit) : OutputUnit :=
  { OutputUnit.reset with lines := u.lines.map fun l => { LineRec.reset with sense := l.sense } }

/-- R62: a mixer after RESTART with scope STATE. -/
def Mixer.kept (m : Mixer) : Mixer := Mixer.resetWith { m.settings with fieldAudio := false }

/-- R126: a record after RESTART with scope STATE. -/
def Node.kept (v : Node) : Node :=
  { Node.reset with state := if v.state = .disabled then .disabled else .absent
                    left := { Node.reset.left with enabled := v.left.enabled }
                    right := { Node.reset.right with enabled := v.right.enabled }
                    position := v.position }

/-- R126: a post table after RESTART with scope STATE. -/
def PostTable.kept (t : PostTable) : PostTable :=
  { PostTable.reset with nodes := t.nodes.map Node.kept, reqCarrier := t.reqCarrier, channel := t.channel, carrier := t.carrier,
                         powerLow := t.powerLow }

/-- R152: the gate after RESTART with scope STATE. -/
def Gate.kept (g : Gate) : Gate := { lanes := g.lanes.map fun l => Lane.resetWith l.settings, site := 0, nextId := 1 }

/-! ### The resets -/

/-- Power is applied (R207): every value is the power-on value and the straps are latched. The model's own clock, its count of free
values and its queue of commands are no part of the hardware and go on. -/
def powerOn (baud1 baud0 : Bool) (s : State) : State :=
  { State.reset with
    clock := s.clock, freeCount := s.freeCount, pending := s.pending
    link := Link.resetWith (Rate.ofStraps baud1 baud0) (BitVec.allOnes 8) (BitVec.allOnes 38) (BitVec.allOnes 38) .powerOn }

/-- R206: RESTART with scope ALL takes effect: everything but the rate takes its power-on value. -/
def restartAllEffect (s : State) : State :=
  { State.reset with
    clock := s.clock, freeCount := s.freeCount, pending := s.pending
    link := Link.resetWith s.link.rate (BitVec.allOnes 8) (BitVec.allOnes 38) (BitVec.allOnes 38) .restartAll }

/-- R206: RESTART with scope STATE takes effect: settings and tables are kept, and running state is cleared. -/
def restartStateEffect (s : State) : State :=
  { State.reset with
    clock := s.clock, freeCount := s.freeCount, pending := s.pending
    link := Link.resetWith s.link.rate s.link.enables s.link.rise s.link.fall .restartState
    screens := s.screens.map Screen.kept
    outputs := s.outputs.map OutputUnit.kept
    mixers := s.mixers.map Mixer.kept
    announce := AnnounceUnit.resetWith s.announce.patterns
    lines := s.lines.map fun l => LineCtl.resetWith l.settings
    posts := s.posts.map PostTable.kept
    gate := s.gate.kept
    fields := s.fields.map fun f => Occupancy.resetWith f.settings
    orders := OrderTable.resetWith s.orders.menu s.orders.staff s.orders.limit }

/-- R206: the accepted RESTART's reply has been sent in full, or is the frame being sent, whose end this event then is. -/
def Link.restartDone (l : Link) : Bool :=
  l.restartDue ||
    match l.tx with
    | .reply r => r.ofRestart
    | _ => false

/-- R206: a restart takes effect. Where none is pending, or its reply waits behind others, this is no such event (log 5). -/
def restartHappens (s : State) : State :=
  if s.link.restartDone then
    match s.link.restart with
    | none => s
    | some .all => restartAllEffect s
    | some .state => restartStateEffect s
  else s

/-- The body of a RESTART (R206). -/
def Scope.body : Scope → List Byte
  | .all => [0x01#8]
  | .state => [0x02#8]

/-- RESTART (R206): the restart waits for the reply. -/
def restartAccepted (scope : Scope) (s : State) : Answer := .ok (s.setLink { s.link with restart := some scope }, .empty)

/-! ### Meanings -/

/-- POWER_ON_RESET (R193, R207). -/
def execPowerOnReset (baud1 baud0 : Bool) (s : State) : Host.Outcome State Fault Refusal := .next (powerOn baud1 baud0 s)

/-- RESTART with scope ALL (R206). -/
def execRestartAll (r : Req) (s : State) : Host.Outcome State Fault Refusal :=
  .next (s.serveSpelled 0x02#8 r Scope.all.body (restartAccepted .all)).kick

/-- RESTART with scope STATE (R206). -/
def execRestartState (r : Req) (s : State) : Host.Outcome State Fault Refusal :=
  .next (s.serveSpelled 0x02#8 r Scope.state.body (restartAccepted .state)).kick

/-- RESTART_TAKES_EFFECT (R206). -/
def execRestartTakesEffect (s : State) : Host.Outcome State Fault Refusal := .next (restartHappens s)

end Sys2Proof.Machine
end

