-- ==== Sys2Proof/Machine/Dispatch.lean ====
section
/-! DEFINITION. One command's meaning: one arm for each row of spec/opcode_table.json. -/

namespace Sys2Proof.Machine

/-- The effect of a command on everything but the queue of commands. -/
def exec (i : Instr) (s : State) : Host.Outcome State Fault Refusal :=
  match i with
  | .powerOnReset baud1 baud0 => Sys2Proof.Machine.execPowerOnReset baud1 baud0 s
  | .restartAll r => Sys2Proof.Machine.execRestartAll r s
  | .restartState r => Sys2Proof.Machine.execRestartState r s
  | .restartTakesEffect => Sys2Proof.Machine.execRestartTakesEffect s
  | .frameReceived byte => Sys2Proof.Machine.execFrameReceived byte s
  | .gapTimerExpiry => Sys2Proof.Machine.execGapTimerExpiry s
  | .unknownRequest tag kind => Sys2Proof.Machine.execUnknownRequest tag kind s
  | .frameSent => Sys2Proof.Machine.execFrameSent s
  | .identify r => Sys2Proof.Machine.execIdentify r s
  | .linkStatus r => Sys2Proof.Machine.execLinkStatus r s
  | .reportMaskWrite r selector bits => Sys2Proof.Machine.execReportMaskWrite r selector bits s
  | .reportMaskSet r selector bits => Sys2Proof.Machine.execReportMaskSet r selector bits s
  | .reportMaskClear r selector bits => Sys2Proof.Machine.execReportMaskClear r selector bits s
  | .conditionRead r => Sys2Proof.Machine.execConditionRead r s
  | .listRead r collection param start count => Sys2Proof.Machine.execListRead r collection param start count s
  | .screenSet r screen settings => Sys2Proof.Machine.execScreenSet r screen settings s
  | .cueLoad r screen count cues => Sys2Proof.Machine.execCueLoad r screen count cues s
  | .cueInsert r screen cue => Sys2Proof.Machine.execCueInsert r screen cue s
  | .cueDelete r screen number => Sys2Proof.Machine.execCueDelete r screen number s
  | .cueClear r screen => Sys2Proof.Machine.execCueClear r screen s
  | .showArm r screen => Sys2Proof.Machine.execShowArm r screen s
  | .showGo r screen => Sys2Proof.Machine.execShowGo r screen s
  | .showStop r screen => Sys2Proof.Machine.execShowStop r screen s
  | .holdRelease r screen => Sys2Proof.Machine.execHoldRelease r screen s
  | .showStatus r screen => Sys2Proof.Machine.execShowStatus r screen s
  | .frameCounted n samples => Sys2Proof.Machine.execFrameCounted n samples s
  | .stallTimerExpiry n => Sys2Proof.Machine.execStallTimerExpiry n s
  | .maximumHoldExpiry n => Sys2Proof.Machine.execMaximumHoldExpiry n s
  | .outputSet r screen senses => Sys2Proof.Machine.execOutputSet r screen senses s
  | .outputForce r screen line level => Sys2Proof.Machine.execOutputForce r screen line level s
  | .outputUnforce r screen line => Sys2Proof.Machine.execOutputUnforce r screen line s
  | .pulseDelayExpiry n line => Sys2Proof.Machine.execPulseDelayExpiry n line s
  | .pulseWidthExpiry n line => Sys2Proof.Machine.execPulseWidthExpiry n line s
  | .blinkHalfPeriodExpiry n line => Sys2Proof.Machine.execBlinkHalfPeriodExpiry n line s
  | .progArrival n frame => Sys2Proof.Machine.execProgArrival n frame s
  | .annArrival sample => Sys2Proof.Machine.execAnnArrival sample s
  | .inputSilenceExpiry input => Sys2Proof.Machine.execInputSilenceExpiry input s
  | .sampleInstant => Sys2Proof.Machine.execSampleInstant s
  | .blockBoundary n => Sys2Proof.Machine.execBlockBoundary n s
  | .audioSet r field settings => Sys2Proof.Machine.execAudioSet r field settings s
  | .audioStatus r field => Sys2Proof.Machine.execAudioStatus r field s
  | .announce r kind pattern targets priority maxDuration => Sys2Proof.Machine.execAnnounce r kind pattern targets priority maxDuration s
  | .announceEnd r id => Sys2Proof.Machine.execAnnounceEnd r id s
  | .chimeDefine r pattern count notes level => Sys2Proof.Machine.execChimeDefine r pattern count notes level s
  | .chimeNoteEnd n => Sys2Proof.Machine.execChimeNoteEnd n s
  | .chimeVoiceFinished n => Sys2Proof.Machine.execChimeVoiceFinished n s
  | .announceDurationExpiry id => Sys2Proof.Machine.execAnnounceDurationExpiry id s
  | .sourceLossExpiry => Sys2Proof.Machine.execSourceLossExpiry s
  | .lineSet r field settings => Sys2Proof.Machine.execLineSet r field settings s
  | .lineStart r field => Sys2Proof.Machine.execLineStart r field s
  | .lineStop r field => Sys2Proof.Machine.execLineStop r field s
  | .startingComplete n => Sys2Proof.Machine.execStartingComplete n s
  | .lfaultLevelChange n samples => Sys2Proof.Machine.execLfaultLevelChange n samples s
  | .autoSurveyExpiry n => Sys2Proof.Machine.execAutoSurveyExpiry n s
  | .audioFrameDone n => Sys2Proof.Machine.execAudioFrameDone n s
  | .replyWindowEnd n bits => Sys2Proof.Machine.execReplyWindowEnd n bits s
  | .postSilenceTimeout n address => Sys2Proof.Machine.execPostSilenceTimeout n address s
  | .downMessageAgeLimit n number => Sys2Proof.Machine.execDownMessageAgeLimit n number s
  | .postRead r field address => Sys2Proof.Machine.execPostRead r field address s
  | .postSet r field address disabled left right position => Sys2Proof.Machine.execPostSet r field address disabled left right position s
  | .postSend r field address message => Sys2Proof.Machine.execPostSend r field address message s
  | .exciterSet r field carrier channel => Sys2Proof.Machine.execExciterSet r field carrier channel s
  | .lineSurveyStart r field => Sys2Proof.Machine.execLineSurveyStart r field s
  | .lineSurveyRead r field => Sys2Proof.Machine.execLineSurveyRead r field s
  | .surveyBeginAtBoundary n => Sys2Proof.Machine.execSurveyBeginAtBoundary n s
  | .surveyStepLaunch n samples => Sys2Proof.Machine.execSurveyStepLaunch n samples s
  | .surveyComplete n => Sys2Proof.Machine.execSurveyComplete n s
  | .surveyReturnToRunning n => Sys2Proof.Machine.execSurveyReturnToRunning n s
  | .laneFirstSample n a b => Sys2Proof.Machine.execLaneFirstSample n a b s
  | .loopLevelChange n samples => Sys2Proof.Machine.execLoopLevelChange n samples s
  | .blockedTimerExpiry n loop => Sys2Proof.Machine.execBlockedTimerExpiry n loop s
  | .admissionExpiry n id => Sys2Proof.Machine.execAdmissionExpiry n id s
  | .laneSet r lane settings => Sys2Proof.Machine.execLaneSet r lane settings s
  | .admitCar r lane field cls occupants override => Sys2Proof.Machine.execAdmit r lane field cls occupants override s
  | .admitCancel r lane id => Sys2Proof.Machine.execAdmitCancel r lane id s
  | .countRead r lane => Sys2Proof.Machine.execCountRead r lane s
  | .countAdjustSetSite r value => Sys2Proof.Machine.execCountAdjustSetSite r value s
  | .countAdjustClearLane r lane => Sys2Proof.Machine.execCountAdjustClearLane r lane s
  | .seatTimeout n index => Sys2Proof.Machine.execSeatTimeout n index s
  | .fieldSet r field settings => Sys2Proof.Machine.execFieldSet r field settings s
  | .fieldStatus r field => Sys2Proof.Machine.execFieldStatus r field s
  | .menuLoadReplace r count items => Sys2Proof.Machine.execMenuLoadReplace r count items s
  | .menuLoadAppend r count items => Sys2Proof.Machine.execMenuLoadAppend r count items s
  | .menuItemSet r code price availability => Sys2Proof.Machine.execMenuItemSet r code price availability s
  | .stationSet r staff limit => Sys2Proof.Machine.execStationSet r staff limit s
  | .orderingSet r field isOpen => Sys2Proof.Machine.execOrderingSet r field isOpen s
  | .orderAccept r number => Sys2Proof.Machine.execOrderAccept r number s
  | .orderStagePreparing r number => Sys2Proof.Machine.execOrderStagePreparing r number s
  | .orderStageReady r number window => Sys2Proof.Machine.execOrderStageReady r number window s
  | .orderCollected r number => Sys2Proof.Machine.execOrderCollected r number s
  | .orderCancel r number reason => Sys2Proof.Machine.execOrderCancel r number reason s
  | .orderRead r number => Sys2Proof.Machine.execOrderRead r number s
  | .acceptanceTimerExpiry number => Sys2Proof.Machine.execAcceptanceTimerExpiry number s
  | .reminderTimerExpiry number => Sys2Proof.Machine.execReminderTimerExpiry number s
  | .staleTimerExpiry number => Sys2Proof.Machine.execStaleTimerExpiry number s
  | .bayEmptyTimerExpiry number => Sys2Proof.Machine.execBayEmptyTimerExpiry number s
  | .linkByteReceived byte => Sys2Proof.Machine.execLinkByteReceived byte s
  | .framingError => Sys2Proof.Machine.execFramingError s

end Sys2Proof.Machine
end

