-- ==== Sys2Proof/Machine/Step.lean ====
section
/-! DEFINITION. One step of the part: the command at the front of the queue, or a millisecond in which nothing is commanded. -/

namespace Sys2Proof.Machine

/-- A millisecond passes with no command: the clock goes on, and an idle transmitter takes a frame that waits (R197; log 6). -/
def State.tick (s : State) : State := { s with clock := s.clock + 1 }.kick

/-- The command at the front of the queue acts on the state with the queue's rest; with no command, a millisecond passes. -/
def step (s : State) : Host.Outcome State Fault Refusal :=
  match s.pending with
  | [] => .next s.tick
  | c :: rest => exec c { s with pending := rest }

/-- The state with the command a word spells put at the front of its queue (log 32). -/
def State.withFetchWord (s : State) (nbits w : Nat) : State :=
  match decodeTableWord nbits w with
  | none => s
  | some c => { s with pending := c :: s.pending }

end Sys2Proof.Machine
end

