-- ==== Sys2Proof/WellFormed.lean ====
section
/-! DEFINITION. Which commands can be sent at all: operands that the bytes of a request, the counters of the part, or the pins cannot
give are not well formed. A value outside the range of a rule is well formed, since it can be sent, and is refused. `exec` gives
every command a meaning, a command that is not well formed too. -/

namespace Sys2Proof

open Sys2Proof.Machine

/-- The bytes of the longest body (R194): no list of a request is longer, since each of its entries takes a byte at least. -/
def bodyRoom : Nat := 512

/-- The operands of a command are such as can come to the part. -/
def Instr.wellFormed : Instr → Bool
  | .unknownRequest _ kind => !knownKinds.contains kind
  | .reportMaskWrite _ .sources bits => bits.extractLsb' 8 32 == 0
  | .reportMaskSet _ .sources bits => bits.extractLsb' 8 32 == 0
  | .reportMaskClear _ .sources bits => bits.extractLsb' 8 32 == 0
  | .cueLoad _ _ _ cues => decide (cues.length ≤ bodyRoom)
  | .chimeDefine _ _ _ notes _ => decide (notes.length ≤ bodyRoom)
  | .announce _ _ _ targets _ _ => decide (targets.length ≤ bodyRoom)
  | .menuLoadReplace _ _ items => decide (items.length ≤ bodyRoom)
  | .menuLoadAppend _ _ items => decide (items.length ≤ bodyRoom)
  | .postSend _ _ _ (.display _ _ _ text) => decide (text.length ≤ bodyRoom)
  | .frameCounted _ samples => !samples.isEmpty
  | .lfaultLevelChange _ samples => !samples.isEmpty
  | .loopLevelChange _ samples => !samples.isEmpty
  | .surveyStepLaunch _ samples => samples.length == 2048
  | .replyWindowEnd _ bits => decide (bits.length ≤ windowBits)
  | .announceDurationExpiry id => within 1 255 id
  | .downMessageAgeLimit _ number => within 1 65535 number
  | .admissionExpiry _ id => within 1 65535 id
  | .seatTimeout _ index => decide (index < 64)
  | .acceptanceTimerExpiry number => within 1 999 number
  | .reminderTimerExpiry number => within 1 999 number
  | .staleTimerExpiry number => within 1 999 number
  | .bayEmptyTimerExpiry number => within 1 999 number
  | _ => true

end Sys2Proof
end

