-- ==== Sys2Proof/Safety.lean ====
section
/-! DEFINITION. The terms claims about the part are stated in: the parts of the state and what a command leaves as it was, replies,
and the invariants of the blocks. -/

namespace Sys2Proof.Machine

/-! ### Frames -/

/-- The parts of the state, as fine as frame statements need them. -/
inductive Part where
  /-- the model's own clock -/
  | clock
  /-- the model's own count of free values -/
  | freeCount
  /-- the queue of commands -/
  | pending
  /-- the link rate -/
  | rate
  /-- the receiver with its gap timer -/
  | receiver
  /-- the request buffer and the busy replies -/
  | requests
  /-- the transmitter and the report queue with its lost mark -/
  | transmitter
  /-- the report, rise and fall enable sets -/
  | enables
  /-- an accepted RESTART -/
  | restart
  /-- the discarded-frame count -/
  | discarded
  /-- the level of a condition -/
  | level (c : Cond)
  /-- the latch of a condition -/
  | latch (c : Cond)
  | screen (n : Nr)
  | output (n : Nr)
  | intake
  | mixer (n : Nr)
  | delay (n : Nr)
  | announce
  | line (n : Nr)
  | post (n : Nr)
  | survey (n : Nr)
  | lane (n : Nr)
  /-- the site vehicle count and the admission id counter -/
  | site
  | field (n : Nr)
  | orders
  deriving DecidableEq, Repr

/-- A part is the same in two states. -/
def Part.same (s t : State) : Part → Prop
  | .clock => s.clock = t.clock
  | .freeCount => s.freeCount = t.freeCount
  | .pending => s.pending = t.pending
  | .rate => s.link.rate = t.link.rate
  | .receiver => s.link.rx = t.link.rx
  | .requests => s.link.requests = t.link.requests ∧ s.link.busy = t.link.busy ∧ s.link.replyCount = t.link.replyCount
  | .transmitter => s.link.tx = t.link.tx ∧ s.link.queue = t.link.queue ∧ s.link.lost = t.link.lost
  | .enables => s.link.enables = t.link.enables ∧ s.link.rise = t.link.rise ∧ s.link.fall = t.link.fall
  | .restart => s.link.restart = t.link.restart ∧ s.link.restartDue = t.link.restartDue
  | .discarded => s.link.discarded = t.link.discarded
  | .level c => Link.level s.link c = Link.level t.link c
  | .latch c => s.link.latch.getLsbD (Cond.number c) = t.link.latch.getLsbD (Cond.number c)
  | .screen n => s.screens.get n = t.screens.get n
  | .output n => s.outputs.get n = t.outputs.get n
  | .intake => s.intake = t.intake
  | .mixer n => s.mixers.get n = t.mixers.get n
  | .delay n => s.delays.get n = t.delays.get n
  | .announce => s.announce = t.announce
  | .line n => s.lines.get n = t.lines.get n
  | .post n => s.posts.get n = t.posts.get n
  | .survey n => s.surveys.get n = t.surveys.get n
  | .lane n => s.gate.lanes.get n = t.gate.lanes.get n
  | .site => s.gate.site = t.gate.site ∧ s.gate.nextId = t.gate.nextId
  | .field n => s.fields.get n = t.fields.get n
  | .orders => s.orders = t.orders

/-- Every part of the state outside a list is the same in two states. -/
def OnlyChanges (parts : List Part) (s t : State) : Prop := ∀ p, p ∉ parts → p.same s t

/-- What giving a condition a level can change (R202). -/
@[simp] abbrev Part.cond (c : Cond) : List Part := [.level c, .latch c, .transmitter]

/-- The four PROGRAM_PRESENT conditions. -/
@[simp] abbrev Part.programs : List Part :=
  Part.cond (.programPresent .one) ++ Part.cond (.programPresent .two) ++ Part.cond (.programPresent .three)
    ++ Part.cond (.programPresent .four)

/-- The four mixers. -/
@[simp] abbrev Part.mixers : List Part := [.mixer .one, .mixer .two, .mixer .three, .mixer .four]

/-- The four CLIPPED conditions. -/
@[simp] abbrev Part.clips : List Part :=
  Part.cond (.clipped .one) ++ Part.cond (.clipped .two) ++ Part.cond (.clipped .three) ++ Part.cond (.clipped .four)

/-- The four post tables with their down queues. -/
@[simp] abbrev Part.posts : List Part := [.post .one, .post .two, .post .three, .post .four]

/-- What an announcement's coming and going can change: the unit, the mixers' ducks, reports. -/
@[simp] abbrev Part.announcing : List Part := .transmitter :: .announce :: Part.mixers

/-- What the offering of notices can change: the orders' owed notices and the down queues. -/
@[simp] abbrev Part.notices : List Part := .orders :: Part.posts

/-- What a change in an order's life can change: notices, reports, and KITCHEN_SATURATED. -/
@[simp] abbrev Part.kitchen : List Part :=
  .transmitter :: .level .kitchenSaturated :: .latch .kitchenSaturated :: Part.notices

/-- What the timeline of screen `n` can change of its own as cues fire and holds begin and end. -/
@[simp] abbrev Part.show (n : Nr) : List Part :=
  [.screen n, .output n, .level (.projectionStalled n), .latch (.projectionStalled n), .level (.showHolding n),
   .latch (.showHolding n), .level (.orderingOpen n), .latch (.orderingOpen n)]

/-- What the timeline of screen `n` can change as cues fire and holds begin and end. -/
@[simp] abbrev Part.showing (n : Nr) : List Part := Part.show n ++ Part.announcing ++ Part.kitchen

/-- The counts of field `n` and what the timeline can change of its own when it is told of them. -/
@[simp] abbrev Part.counts (n : Nr) : List Part := .field n :: .level (.fieldFull n) :: .latch (.fieldFull n) :: Part.show n

/-- What a change of the counts of field `n` can change. -/
@[simp] abbrev Part.counting (n : Nr) : List Part := Part.counts n ++ Part.announcing ++ Part.kitchen

/-- What a change of the state of line `n` can change by itself. -/
@[simp] abbrev Part.lineState (n : Nr) : List Part := .line n :: (Part.cond (.lineUp n) ++ Part.cond (.fmFault n))

/-- What a record of line `n` that leaves PRESENT, or has an enable changed, can change: the counts of the field by its bays, the
orders and the down queues by its messages. No car comes to a bay or leaves one, so the timeline is told of nothing (R157). -/
@[simp] abbrev Part.leaving (n : Nr) : List Part :=
  .transmitter :: .field n :: .level (.fieldFull n) :: .latch (.fieldFull n) :: Part.notices

/-- What line `n` can change as it goes to FAULT, to OFF, or through STARTING. -/
@[simp] abbrev Part.faulting (n : Nr) : List Part := .freeCount :: (Part.lineState n ++ Part.leaving n)

/-- What a block boundary of field `n` can change of the mixer's delay line and conditions, of the line and of its survey. -/
@[simp] abbrev Part.handing (n : Nr) : List Part :=
  [.survey n, .delay n, .line n, .level (.programPresent n), .latch (.programPresent n), .level (.clipped n), .latch (.clipped n),
   .level (.lineUp n), .latch (.lineUp n), .level (.fmFault n), .latch (.fmFault n)]

/-- What a block boundary of field `n` can change: the mixer and the line to which the block is handed, with what ends there and what
begins there. -/
@[simp] abbrev Part.boundary (n : Nr) : List Part :=
  .freeCount :: .announce :: .mixer n :: (Part.handing n ++ Part.leaving n)

/-- What a sample instant can change: the intake with its conditions, the mixers, and what a boundary of each field can. -/
@[simp] abbrev Part.audio : List Part :=
  [.freeCount, .intake, .level .announceSourcePresent, .latch .announceSourcePresent] ++ Part.announcing
    ++ Part.handing .one ++ Part.handing .two ++ Part.handing .three ++ Part.handing .four
    ++ Part.leaving .one ++ Part.leaving .two ++ Part.leaving .three ++ Part.leaving .four

/-- What a change of the counts of some field can change. -/
@[simp] abbrev Part.countingAny : List Part :=
  Part.counts .one ++ Part.counts .two ++ Part.counts .three ++ Part.counts .four ++ Part.announcing ++ Part.kitchen

/-! ### Requests, replies and reports -/

/-- A request of this kind and tag is the oldest waiting one, and no restart is pending: the link takes it next (R196, R206). -/
def InTurn (kind tag : Byte) (s : State) : Prop :=
  s.link.restart = none ∧
    ∃ before q after, s.link.requests = before ++ q :: after ∧ (∀ p ∈ before, p.reply ≠ none) ∧ q.reply = none ∧ q.kind = kind ∧
      q.tag = tag

/-- The oldest waiting request of `s`, of this kind and tag, carries in `t` a reply of the kind plus 80h with the same tag, this
result and this body, and the rest of the request buffer is as it was (R196). -/
def Replied (kind tag : Byte) (result : Result) (body : ReplyBody) (s t : State) : Prop :=
  ∃ before q after, s.link.requests = before ++ q :: after ∧ (∀ p ∈ before, p.reply ≠ none) ∧ q.reply = none ∧ q.kind = kind ∧
    q.tag = tag ∧
    t.link.requests = before ++ { q with reply := some ⟨s.link.replyCount, kind + 0x80#8, tag, result, body⟩ } :: after ∧
    t.link.replyCount = s.link.replyCount + 1

/-- A command, a request of this kind and tag, is answered with a result other than OK and changes nothing else (R196). -/
def Refuses (c : Instr) (kind tag : Byte) (result : Result) (s : State) : Prop :=
  ∃ t, exec c s = .next t ∧ Replied kind tag result .empty s t ∧ OnlyChanges [.requests, .transmitter] s t

/-- The reports that are on their way out: the one that is being sent, and those in the queue, oldest first. -/
def Link.outgoing (l : Link) : List Report :=
  (match l.tx with
    | .report q => [q.report]
    | _ => [])
    ++ l.queue.map (·.report)

/-- The reports made between two states, in the order in which they were made. -/
def Reports (rs : List Report) (s t : State) : Prop := t.link.outgoing = s.link.outgoing ++ rs

/-- A report is among those made between two states. -/
def Tells (r : Report) (s t : State) : Prop := ∃ rs, Reports rs s t ∧ r ∈ rs

/-- Whether a report is of the SHOW source (R198). -/
def Report.ofShow : Report → Bool
  | .showState .. => true
  | .cueFired .. => true
  | .holdBegan .. => true
  | .holdEnded .. => true
  | _ => false

/-- The reports of the SHOW source among those made between two states, in the order in which they were made. -/
def TellsShow (rs : List Report) (s t : State) : Prop := ∃ all, Reports all s t ∧ all.filter Report.ofShow = rs

/-- Reports of a source are enabled, and the report queue has room for `k` of them (R200). -/
def Hears (source : Source) (k : Nat) (s : State) : Prop :=
  Link.enabled s.link source = true ∧ s.link.queue.length + k ≤ 32

/-- Whether a report is of the LINE source (R198). -/
def Report.ofLine : Report → Bool
  | .lineState .. => true
  | .postState .. => true
  | .postCall .. => true
  | .downFailed .. => true
  | .surveyDone .. => true
  | _ => false

/-- The reports of the LINE source among those made between two states, in the order in which they were made. -/
def TellsLine (rs : List Report) (s t : State) : Prop := ∃ all, Reports all s t ∧ all.filter Report.ofLine = rs

/-- Reports of a source are enabled, and none that a command made between two states has been lost: a report that finds the queue
full sets the lost mark, which then stands, for nothing leaves the queue before the command's end (R200). -/
def Heard (source : Source) (s t : State) : Prop := Link.enabled s.link source = true ∧ t.link.lost = false

/-- The DOWN_FAILED reports that a record's leaving PRESENT makes: of its messages that have reached the age limit, in queue order
(R119, R120, R121). -/
def agedOut (s : State) (n : Nr) (a : Fin 97) : List Report :=
  if (s.node n a).state = .present then
    ((s.posts.get n).queue.filter fun e => decide (e.address = a.val ∧ e.entered + 60000 ≤ s.clock)).map fun e =>
      .downFailed n e.address e.number e.msg.kind e.source .notPresent
  else []

/-- The same of every record of a line, in order of address. -/
def allAgedOut (s : State) (n : Nr) : List Report := (List.finRange 97).flatMap (agedOut s n)

/-- The message numbers of a line's down queue are distinct (R116). -/
def numbersDistinct (s : State) (n : Nr) : Prop := ((s.posts.get n).queue.map (·.number)).Nodup

/-- A fire pass of screen `n` at a position, from the cues of `s` and with these settings and inbound count, after the reports `lead`
of what brings it about: every due cue fires, in list order, up to the first that ends the show or begins a hold; after a pass that
leaves the show RUNNING the last position ends it. The reports of the SHOW source are CUE_FIRED of each cue in list order, and after
its own HOLD_BEGAN, or SHOW_STATE of END; of a cue of a booth line CUE_FIRED tells an outcome that is not said here (R11, R12, R14,
R17, R23). -/
def FirePass (s : State) (n : Nr) (settings : ScreenSettings) (inbound p clock : Nat) (lead : List Report) (t : State) : Prop :=
  let x := s.screens.get n
  let holds (d : Cue) : Prop := d.action = .holdPoint ∧ settings.holdEnable = true ∧ settings.holdThreshold < inbound
  let due (d : Cue) : Prop := d.fired = false ∧ d.position ≤ p
  let stops (d : Cue) : Prop := due d ∧ (d.action = .finish ∨ holds d)
  let fires (cues : List Cue) : List Cue :=
    cues.map fun d => if d.fired = false ∧ d.position ≤ p then { d with fired := true } else d
  -- cues of no booth line, and their reports
  let plain (d : Cue) : Prop := ∀ line op, d.action ≠ .output line op
  let tellsOf (d : Cue) : Report := .cueFired n d.number d.position d.action
    (if d.action = .holdPoint then some (if d.action = .holdPoint ∧ settings.holdEnable = true
      ∧ settings.holdThreshold < inbound then .held else .passed) else none)
  let tellsAll (cues : List Cue) : List Report :=
    (cues.filter fun d => decide (d.fired = false ∧ d.position ≤ p)).map tellsOf
  (t.screens.get n).position = p
    ∧ ((∀ d ∈ x.cues, ¬ stops d) →
      (t.screens.get n).cues = fires x.cues
      ∧ (t.screens.get n).state = (if p = 16777215 then .ended else .running)
      ∧ (t.screens.get n).stall = (if p = 16777215 then none else some (clock + settings.stallTime))
      ∧ ((∀ d ∈ x.cues, due d → plain d) → Heard .show s t → TellsShow (lead ++ tellsAll x.cues
        ++ if p = 16777215 then [.showState n .running .ended p .positionLimit] else []) s t))
    ∧ (∀ before c after, x.cues = before ++ c :: after → (∀ d ∈ before, ¬ stops d) → stops c →
      (t.screens.get n).cues = fires before ++ { c with fired := true } :: after
      ∧ (t.screens.get n).state = (if c.action = .finish then .ended else .holding) ∧ (t.screens.get n).stall = none
      ∧ (holds c → (t.screens.get n).maxHold = some (clock + settings.maxHold * 1000) ∧ (t.screens.get n).overrun = 0
        ∧ (t.outputs.get n).hold = .asserted ∧ State.level t (.showHolding n) = true)
      ∧ ((∀ d ∈ before, due d → plain d) → Heard .show s t → TellsShow (lead ++ tellsAll before ++ [tellsOf c,
        if c.action = .finish then .showState n .running .ended p .endCue
        else .holdBegan n c.number p inbound settings.holdThreshold]) s t))

/-- The kind of a request command (section 12.4) and what it carries besides its values; none for the other commands. -/
def request? : Instr → Option (Byte × Req)
  | .identify r => some (0x01#8, r)
  | .restartAll r => some (0x02#8, r)
  | .restartState r => some (0x02#8, r)
  | .reportMaskWrite r _ _ => some (0x03#8, r)
  | .reportMaskSet r _ _ => some (0x03#8, r)
  | .reportMaskClear r _ _ => some (0x03#8, r)
  | .conditionRead r => some (0x04#8, r)
  | .listRead r _ _ _ _ => some (0x05#8, r)
  | .linkStatus r => some (0x06#8, r)
  | .screenSet r _ _ => some (0x10#8, r)
  | .cueLoad r _ _ _ => some (0x11#8, r)
  | .cueInsert r _ _ => some (0x12#8, r)
  | .cueDelete r _ _ => some (0x13#8, r)
  | .cueClear r _ => some (0x14#8, r)
  | .showArm r _ => some (0x15#8, r)
  | .showGo r _ => some (0x16#8, r)
  | .showStop r _ => some (0x17#8, r)
  | .holdRelease r _ => some (0x18#8, r)
  | .showStatus r _ => some (0x19#8, r)
  | .outputSet r _ _ => some (0x20#8, r)
  | .outputForce r _ _ _ => some (0x21#8, r)
  | .outputUnforce r _ _ => some (0x22#8, r)
  | .audioSet r _ _ => some (0x28#8, r)
  | .audioStatus r _ => some (0x29#8, r)
  | .announce r _ _ _ _ _ => some (0x30#8, r)
  | .announceEnd r _ => some (0x31#8, r)
  | .chimeDefine r _ _ _ _ => some (0x32#8, r)
  | .lineSet r _ _ => some (0x38#8, r)
  | .lineStart r _ => some (0x39#8, r)
  | .lineStop r _ => some (0x3A#8, r)
  | .lineSurveyStart r _ => some (0x3B#8, r)
  | .lineSurveyRead r _ => some (0x3B#8, r)
  | .postRead r _ _ => some (0x3C#8, r)
  | .postSet r _ _ _ _ _ _ => some (0x3D#8, r)
  | .postSend r _ _ _ => some (0x3E#8, r)
  | .exciterSet r _ _ _ => some (0x3F#8, r)
  | .laneSet r _ _ => some (0x40#8, r)
  | .admitCar r _ _ _ _ _ => some (0x41#8, r)
  | .admitCancel r _ _ => some (0x42#8, r)
  | .countRead r _ => some (0x43#8, r)
  | .countAdjustSetSite r _ => some (0x44#8, r)
  | .countAdjustClearLane r _ => some (0x44#8, r)
  | .fieldSet r _ _ => some (0x48#8, r)
  | .fieldStatus r _ => some (0x49#8, r)
  | .menuLoadReplace r _ _ => some (0x50#8, r)
  | .menuLoadAppend r _ _ => some (0x50#8, r)
  | .menuItemSet r _ _ _ => some (0x51#8, r)
  | .stationSet r _ _ => some (0x52#8, r)
  | .orderingSet r _ _ => some (0x53#8, r)
  | .orderAccept r _ => some (0x54#8, r)
  | .orderStagePreparing r _ => some (0x55#8, r)
  | .orderStageReady r _ _ => some (0x55#8, r)
  | .orderCollected r _ => some (0x56#8, r)
  | .orderCancel r _ _ => some (0x57#8, r)
  | .orderRead r _ => some (0x58#8, r)
  | _ => none

/-- The body bytes that a request command spells, for the kinds whose rules lay them out (R199, R203, R205, R206). -/
def spelled? : Instr → Option (List Byte)
  | .identify _ | .linkStatus _ | .conditionRead _ => some []
  | .restartAll _ => some [0x01#8]
  | .restartState _ => some [0x02#8]
  | .reportMaskWrite _ selector bits => some (maskBody .write selector bits)
  | .reportMaskSet _ selector bits => some (maskBody .set selector bits)
  | .reportMaskClear _ selector bits => some (maskBody .clear selector bits)
  | _ => none

/-- How the request in turn reads against a request command: by its own bytes where it was received and its rule lays them out, and
by the command's form otherwise; none where its bytes spell another command (logs 1, 2). -/
def readsAs (c : Instr) (kind : Byte) (r : Req) (s : State) : Option Form :=
  match spelled? c with
  | none => some r.form
  | some bytes => s.reading kind bytes r.form

/-- The request in turn was received with these body bytes. -/
def Received (bytes : List Byte) (s : State) : Prop := ∃ q, Link.waiting s.link = some q ∧ q.body = some bytes

/-- The request in turn was received with these body bytes, or was brought by its own command, whose form fits (logs 1, 2). -/
def Carries (bytes : List Byte) (r : Req) (s : State) : Prop :=
  Received bytes s ∨ ∃ q, Link.waiting s.link = some q ∧ q.body = none ∧ r.form = .fits

/-- The commands of a list carry the part from `s` to `t`, each ending in a next state. -/
def Runs : List Instr → State → State → Prop
  | [], s, t => t = s
  | c :: rest, s, t => ∃ u, exec c s = .next u ∧ Runs rest u t

/-- The reports of one source that a command makes, where it makes no others: all of them where the source is heard, none where it
is not enabled. -/
def Makes (source : Source) (rs : List Report) (s t : State) : Prop :=
  (Hears source rs.length s → Reports rs s t) ∧ (Link.enabled s.link source = false → Reports [] s t)

/-- The tables of R138 and R139: a decoder's next state and pending count at a change of a loop's filtered level, and the passes
counted, in their order with their flags (R140). A change that the state cannot receive while it agrees with the filtered levels
leaves it as it is. -/
def decoderTable (d : Decoder) (held : Nat) (loop : LoopName) (up : Bool) : Decoder × Nat × List RawPass :=
  let balk (way : PassDirection) : RawPass := ⟨way, true, false⟩
  let leading (way : PassDirection) : RawPass := ⟨way, false, false⟩
  let tailgating (way : PassDirection) : RawPass := ⟨way, false, true⟩
  match d, loop, up with
  | .clear, .a, true => (.inA, held, [])
  | .inA, .b, true => (.inAB, held, [])
  | .inA, .a, false => (.clear, 0, balk .entry :: List.replicate held (tailgating .entry))
  | .inAB, .a, false => (.inB, held, [])
  | .inAB, .b, false => (.inA, held, [])
  | .inB, .b, false => (.clear, 0, leading .entry :: List.replicate held (tailgating .entry))
  | .inB, .a, true => if held < 3 then (.inAB, held + 1, []) else (.inAB, held, [tailgating .entry])
  | .clear, .b, true => (.outB, held, [])
  | .outB, .a, true => (.outBA, held, [])
  | .outB, .b, false => (.clear, 0, balk .exit :: List.replicate held (tailgating .exit))
  | .outBA, .b, false => (.outA, held, [])
  | .outBA, .a, false => (.outB, held, [])
  | .outA, .a, false => (.clear, 0, leading .exit :: List.replicate held (tailgating .exit))
  | .outA, .b, true => if held < 3 then (.outBA, held + 1, []) else (.outBA, held, [tailgating .exit])
  | d, _, _ => (d, held, [])

/-- Lane `n` as a change of a loop leaves it, before the decoder takes it: the loop at its new level with its blocked timer started or
idle, and the other's run count cleared by a sample equal to its level (R135, R144). -/
def turnedLane (s : State) (n : Nr) (loop : LoopName) : Lane :=
  let l := s.lane n
  let other : LoopName := if loop = .a then .b else .a
  let up := !(l.loop loop).level
  (l.setLoop loop ⟨up, 0, if up then .running (s.clock + l.settings.blockedTime * 1000) else .idle⟩).setLoop other
    { l.loop other with run := 0 }

/-- The sample pair of a lane at which a loop differs from its filtered level and the other does not (R135). -/
def differing (l : Lane) : LoopName → Bool × Bool
  | .a => (!l.loopA.level, l.loopB.level)
  | .b => (l.loopA.level, !l.loopB.level)

/-- The field, screen or lane number that a request names first. -/
def place? : Instr → Option Nat
  | .screenSet _ k _ | .cueLoad _ k _ _ | .cueInsert _ k _ | .cueDelete _ k _ | .cueClear _ k => some k
  | .showArm _ k | .showGo _ k | .showStop _ k | .holdRelease _ k | .showStatus _ k => some k
  | .outputSet _ k _ | .outputForce _ k _ _ | .outputUnforce _ k _ | .audioSet _ k _ | .audioStatus _ k => some k
  | .lineSet _ k _ | .lineStart _ k | .lineStop _ k | .lineSurveyStart _ k | .lineSurveyRead _ k => some k
  | .postRead _ k _ | .postSet _ k _ _ _ _ _ | .postSend _ k _ _ | .exciterSet _ k _ _ => some k
  | .laneSet _ k _ | .admitCar _ k _ _ _ _ | .admitCancel _ k _ | .countRead _ k | .countAdjustClearLane _ k => some k
  | .fieldSet _ k _ | .fieldStatus _ k | .orderingSet _ k _ => some k
  | _ => none

/-- The body length of a request matches the count or the text length it carries. -/
def countFits : Instr → Prop
  | .cueLoad _ _ count cues => count = cues.length
  | .chimeDefine _ _ count notes _ => count = notes.length
  | .menuLoadReplace _ count items => count = items.length
  | .menuLoadAppend _ count items => count = items.length
  | .postSend _ _ _ (.display _ _ textLength text) => textLength = text.length
  | _ => True

/-- No cue of a list waits to fire at a position (R12). -/
def noCueDue (position : Nat) (cues : List Cue) : Prop := ∀ c ∈ cues, c.fired = true ∨ position < c.position

/-- No cue of a timeline waits to fire at its position, which is not the last (R12). -/
def nothingDue (x : Screen) : Prop := x.position < 16777215 ∧ noCueDue x.position x.cues

/-- No order of a field is deferred. -/
def noneDeferred (n : Nr) (s : State) : Prop := ∀ o ∈ s.orders.live, o.field = n → o.state ≠ .deferred

/-- A cue added to a list: after every cue whose position is not greater than its own, before every other, its fired mark clear
(R4). -/
def placed (list : List Cue) (c : CueSpec) : List Cue :=
  list.filter (fun d => decide (d.position ≤ c.position)) ++ ⟨c.number, c.position, c.action, false⟩
    :: list.filter fun d => decide (c.position < d.position)

/-- The first value from a counter on, counting from `top` to 1, that is not in use (R63, R145, R170). -/
def IsFirstFree (top : Nat) (used : List Nat) (counter value : Nat) : Prop :=
  ∃ k, value = (counter - 1 + k) % top + 1 ∧ value ∉ used ∧ ∀ j, j < k → (counter - 1 + j) % top + 1 ∈ used

/-- The tap of a number; taps that are not listed are 0 (R129). -/
def tapAt (taps : List (Nat × Int)) (k : Nat) : Int :=
  match taps.find? fun p => p.1 == k with
  | none => 0
  | some p => p.2

/-- Taps `i` to `j - 1` are a run: all of one sign with magnitudes at or above the threshold, and no longer run holds them (R130). -/
def IsRun (taps : List (Nat × Int)) (threshold i j : Nat) : Prop :=
  i < j ∧ (∀ k, i ≤ k → k < j → threshold ≤ (tapAt taps k).natAbs ∧ (0 < tapAt taps k ↔ 0 < tapAt taps i))
    ∧ (∀ k, k + 1 = i → (tapAt taps k).natAbs < threshold ∨ ¬ (0 < tapAt taps k ↔ 0 < tapAt taps i))
    ∧ ((tapAt taps j).natAbs < threshold ∨ ¬ (0 < tapAt taps j ↔ 0 < tapAt taps i))

/-- The down queue of a line with a notice of an order at its end, where it finds room (R116). -/
def afterNotice (s : State) (n : Nr) (address : Nat) (msg : DownMsg) (number clock : Nat) : List DownEntry :=
  let p := s.posts.get n
  if p.queue.length < 48 ∧ (s.lines.get n).state ≠ .off then
    p.queue ++ [⟨p.counter, address, msg, .order number, clock, .waiting⟩]
  else p.queue

/-- A live order with a number replaced. -/
def withOrder (t : OrderTable) (o : Order) : OrderTable :=
  { t with live := t.live.map fun p => if p.number = o.number then o else p }

/-- An order table without a live order: it leaves its window queue with its record (R180). -/
def withoutOrder (t : OrderTable) (number : Nat) : OrderTable :=
  { t with live := t.live.filter fun o => decide (o.number ≠ number)
           windows := t.windows.map fun q => q.filter fun k => decide (k ≠ number) }

/-! ### Invariants -/

/-- The conditions that tell of a level kept elsewhere agree with it, and the HOLD line is asserted exactly while the show is HOLDING
(R39, R42, R98, R112, R144, R168; R23 and R25 for SHOW_HOLDING). A lane that has seen no sample has no blocked timer. -/
def ConditionsAgree (s : State) : Prop :=
  State.level s .announceSourcePresent = s.intake.annPresent
    ∧ ∀ n,
      State.level s (.programPresent n) = s.intake.progPresent.get (s.mixers.get n).appliedRoute
      ∧ State.level s (.lineUp n) = decide ((s.lines.get n).state = .running)
      ∧ (State.level s (.fmFault n) = true ↔ (s.lines.get n).state = .running ∧ (s.node n 0).state ≠ .disabled
        ∧ ((s.node n 0).state ≠ .present ∨ ((s.posts.get n).carrier = false ∧ (s.posts.get n).reqCarrier = true)
          ∨ (s.posts.get n).powerLow = true))
      ∧ State.level s (.orderingOpen n) = s.orders.ordering.get n
      ∧ State.level s (.laneBlocked n)
        = decide ((s.lane n).loopA.blocked = .expired ∨ (s.lane n).loopB.blocked = .expired)
      ∧ ((s.lane n).sampled = false → (s.lane n).loopA.blocked = .idle ∧ (s.lane n).loopB.blocked = .idle)
      ∧ State.level s (.showHolding n) = decide ((s.screens.get n).state = .holding)
      ∧ ((s.outputs.get n).hold = .asserted ↔ (s.screens.get n).state = .holding)

/-- Every timeline stands as chapter 1 lays down: at most 64 cues in position order with distinct numbers, none fired beyond the
position; an EMPTY list in EMPTY and none in LOADED; a RUNNING show short of the last position; its timers and
PROJECTION_STALLED in their states alone (R2, R4, R8, R9, R14, R22, R23, R25). -/
def TimelinesStand (s : State) : Prop :=
  ∀ n,
    let x := s.screens.get n
    x.cues.length ≤ 64 ∧ x.cues.Pairwise (fun c d => c.position ≤ d.position) ∧ (x.cues.map (·.number)).Nodup
      ∧ (∀ c ∈ x.cues, c.fired = true → c.position ≤ x.position) ∧ x.position ≤ 16777215
      ∧ (x.state = .empty → x.cues = []) ∧ (x.state = .loaded → x.cues ≠ [])
      ∧ (x.state = .running → x.position < 16777215) ∧ (x.stall ≠ none → x.state = .running)
      ∧ (x.maxHold ≠ none ↔ x.state = .holding) ∧ (State.level s (.projectionStalled n) = true → x.state = .running)

/-- The occupancy of every field: capacity and seated count the bays of PRESENT posts, available is worked out from them, at most 64
cars are inbound, and FIELD_FULL is high at 0 available and low at the margin or above (R153, R154, R155, R158). -/
def OccupancyStands (s : State) : Prop :=
  ∀ n,
    let f := s.fields.get n
    f.capacity = capacityOf (s.posts.get n) ∧ f.seated = seatedOf (s.posts.get n) ∧ f.available = f.free
      ∧ f.inbound.length ≤ 64 ∧ 1 ≤ f.settings.reopenMargin
      ∧ (State.level s (.fieldFull n) = true → f.available < f.settings.reopenMargin)
      ∧ (State.level s (.fieldFull n) = false → 0 < f.available)

/-- The order table: at most 256 live orders with distinct numbers, at most two of a bay; each backlog is the work of the orders in
the kitchen; the window queues hold exactly the READY orders of their windows; KITCHEN_SATURATED agrees with its table; and the menu
stands in order of code (R164, R169, R171, R175, R176, R184, R185). -/
def OrdersStand (s : State) : Prop :=
  let t := s.orders
  t.live.length ≤ 256 ∧ (t.live.map (·.number)).Nodup ∧ (∀ o ∈ t.live, 1 ≤ o.number ∧ o.number ≤ 999)
    ∧ 1 ≤ t.nextNumber ∧ t.nextNumber ≤ 999
    ∧ (∀ n post side, (t.ofBay n post side).length ≤ 2)
    ∧ (∀ k, t.backlog.get k
      = ((t.live.filter fun o => decide (o.state = .received ∨ o.state = .accepted ∨ o.state = .preparing)).map
          fun o => o.work.get k).sum)
    ∧ (∀ w, (t.windows.get w).Nodup ∧ (t.windows.get w).length ≤ 32
      ∧ ∀ k, k ∈ t.windows.get w ↔ ∃ o ∈ t.live, o.number = k ∧ o.state = .ready ∧ o.window = some w)
    ∧ (State.level s .kitchenSaturated = true → ∃ k, t.limit - 60 < stationLoad t k)
    ∧ (State.level s .kitchenSaturated = false → ∀ k, stationLoad t k < t.limit)
    ∧ 60 ≤ t.limit ∧ (∀ k, 1 ≤ t.staff.get k) ∧ t.menu.Pairwise fun i j => i.code < j.code

/-- What names a record names one: announcement ids, and admission ids over all lanes; no two active announcements share a field or
the live source; announcements wait in order of priority (R63, R64, R67, R145). The model's own sparse lists stand in rising order (logs 14 and 28). -/
def RecordsAreDistinct (s : State) : Prop :=
  ((s.announce.queue ++ s.announce.active).map (·.id)).Nodup
    ∧ (∀ a ∈ s.announce.queue ++ s.announce.active, 1 ≤ a.id ∧ a.id ≤ 255) ∧ 1 ≤ s.announce.nextId ∧ s.announce.nextId ≤ 255
    ∧ (s.announce.active.Pairwise fun a b =>
        (∀ n, ¬ (a.targets.get n = true ∧ b.targets.get n = true)) ∧ ¬ (a.kind = .live ∧ b.kind = .live))
    ∧ (∀ a ∈ s.announce.queue ++ s.announce.active, ∃ n, a.targets.get n = true)
    ∧ (s.announce.queue.Pairwise fun a b => a.priority ≤ b.priority)
    ∧ s.gate.ids.Nodup ∧ (∀ k ∈ s.gate.ids, 1 ≤ k ∧ k ≤ 65535) ∧ 1 ≤ s.gate.nextId ∧ s.gate.nextId ≤ 65535
    ∧ ∀ n, (s.delays.get n).slots.Pairwise (fun a b => a.1 < b.1) ∧ (s.surveys.get n).taps.Pairwise (fun a b => a.1 < b.1)

/-- Every buffer, queue and list keeps within its capacity, every gain within 4096, every write index within its ring (R48, R58, R64,
R116, R145, R164, R196, R200). -/
def CapacitiesKept (s : State) : Prop :=
  s.link.requests.length ≤ 4 ∧ s.link.busy.length ≤ 4 ∧ s.link.queue.length ≤ 32
    ∧ s.announce.queue.length ≤ 16 ∧ s.orders.menu.length ≤ 128
    ∧ ∀ n, (s.posts.get n).queue.length ≤ 48 ∧ (s.lane n).queue.length ≤ 8
      ∧ (s.mixers.get n).block.length ≤ 96 ∧ (s.delays.get n).writeIndex < 19296
      ∧ (s.mixers.get n).settings.duckDepth ≤ 4096 ∧ (s.mixers.get n).inUse.duckDepth ≤ 4096
      ∧ (s.mixers.get n).fadeGain ≤ 4096 ∧ (s.mixers.get n).duckGain ≤ 4096

/-- Every condition (R201). -/
def allConds : List Cond :=
  .announceSourcePresent :: .kitchenSaturated :: Nr.all.flatMap fun n =>
    [.programPresent n, .clipped n, .showHolding n, .projectionStalled n, .lineUp n, .fmFault n, .fieldFull n, .laneBlocked n,
     .orderingOpen n]

/-- The latch of every condition. -/
def Part.latches : List Part := allConds.map .latch

/-- Every part that a restart resets (R206): all but the rate and the model's own clock, count of free values and queue. -/
def Part.hardware : List Part :=
  [.receiver, .requests, .transmitter, .enables, .restart, .discarded, .intake, .announce, .site, .orders]
    ++ (Nr.all.flatMap fun n => [.screen n, .output n, .mixer n, .delay n, .line n, .post n, .survey n, .lane n, .field n])
    ++ allConds.map .level ++ Part.latches

/-- The parts of the thing of a number, none where the number is not 1-4. -/
def Part.of (number : Nat) (f : Nr → List Part) : List Part :=
  match Nr.ofNat? number with
  | none => []
  | some n => f n

/-- What a command can change beside the transmitter, which may take a frame at the end of every command, and beside what the turn
of a request changes. Everything else is as it was (the frame of the command). -/
def touches : Instr → List Part
  | .powerOnReset _ _ => .rate :: Part.hardware
  | .restartTakesEffect => Part.hardware
  | .restartAll _ => [.restart]
  | .restartState _ => [.restart]
  | .frameReceived _ => [.receiver, .requests, .discarded]
  | .linkByteReceived _ => [.receiver, .requests, .discarded]
  | .gapTimerExpiry => [.clock, .receiver, .requests, .discarded]
  | .framingError => [.receiver, .requests, .discarded]
  | .frameSent => [.receiver, .requests, .restart]
  | .unknownRequest _ _ => []
  | .identify _ => []
  | .linkStatus _ => []
  | .reportMaskWrite _ _ _ => [.enables]
  | .reportMaskSet _ _ _ => [.enables]
  | .reportMaskClear _ _ _ => [.enables]
  | .conditionRead _ => Part.latches
  | .listRead _ _ _ _ _ => []
  | .screenSet _ k _ => Part.of k Part.showing
  | .cueLoad _ k _ _ => Part.of k fun n => .screen n :: Part.kitchen
  | .cueInsert _ k _ => Part.of k fun n => .screen n :: Part.kitchen
  | .cueDelete _ k _ => Part.of k fun n => .screen n :: Part.kitchen
  | .cueClear _ k => Part.of k fun n => .screen n :: Part.kitchen
  | .showArm _ k => Part.of k fun n => .screen n :: .output n :: Part.kitchen
  | .showGo _ k => Part.of k Part.showing
  | .showStop _ k => Part.of k Part.showing
  | .holdRelease _ k => Part.of k Part.showing
  | .showStatus _ _ => []
  | .frameCounted n _ => Part.showing n
  | .stallTimerExpiry n => .clock :: .screen n :: Part.cond (.projectionStalled n)
  | .maximumHoldExpiry n => .clock :: Part.showing n
  | .outputSet _ k _ => Part.of k fun n => [.output n]
  | .outputForce _ k _ _ => Part.of k fun n => [.output n]
  | .outputUnforce _ k _ => Part.of k fun n => [.output n]
  | .pulseDelayExpiry n _ => [.clock, .output n]
  | .pulseWidthExpiry n _ => [.clock, .output n]
  | .blinkHalfPeriodExpiry n _ => [.clock, .output n]
  | .progArrival _ _ => .intake :: .delay .one :: .delay .two :: .delay .three :: .delay .four :: Part.programs
  | .annArrival _ => .intake :: .announce :: Part.cond .announceSourcePresent
  | .inputSilenceExpiry _ => .intake :: .announce :: (Part.cond .announceSourcePresent ++ Part.programs)
  | .sampleInstant => Part.audio
  | .blockBoundary n => Part.boundary n
  | .audioSet _ k _ => Part.of k fun n => [.mixer n]
  | .audioStatus _ _ => []
  | .announce _ _ _ _ _ _ => Part.announcing
  | .announceEnd _ _ => Part.announcing
  | .chimeDefine _ _ _ _ _ => [.announce]
  | .chimeNoteEnd _ => [.announce]
  | .chimeVoiceFinished _ => Part.announcing
  | .announceDurationExpiry _ => .clock :: Part.announcing
  | .sourceLossExpiry => .clock :: Part.announcing
  | .lineSet _ k _ => Part.of k fun n => [.line n]
  | .lineStart _ k => Part.of k Part.faulting
  | .lineStop _ k => Part.of k fun n => .survey n :: Part.faulting n
  | .startingComplete n => Part.boundary n
  | .lfaultLevelChange n _ => Part.faulting n
  | .autoSurveyExpiry n => .clock :: .survey n :: Part.lineState n
  | .audioFrameDone n => .line n :: Part.notices
  | .replyWindowEnd n _ => .line n :: (Part.cond (.fmFault n) ++ Part.counting n)
  | .postSilenceTimeout n _ => .clock :: .post n :: Part.cond (.fmFault n)
  | .downMessageAgeLimit _ _ => .clock :: Part.notices
  | .postRead _ k _ => Part.of k fun n => [.post n]
  | .postSet _ k _ _ _ _ _ => Part.of k fun n => Part.cond (.fmFault n) ++ Part.leaving n
  | .postSend _ k _ _ => Part.of k fun n => [.post n]
  | .exciterSet _ k _ _ => Part.of k fun n => .post n :: Part.cond (.fmFault n)
  | .lineSurveyStart _ k => Part.of k fun n => .survey n :: Part.lineState n
  | .lineSurveyRead _ _ => []
  | .surveyBeginAtBoundary n => Part.boundary n
  | .surveyStepLaunch n _ => [.clock, .survey n]
  | .surveyComplete n => .clock :: .freeCount :: .survey n :: Part.lineState n
  | .surveyReturnToRunning n => Part.boundary n
  | .laneFirstSample n _ _ => [.lane n]
  | .loopLevelChange n _ => .lane n :: .site :: (Part.cond (.laneBlocked n) ++ Part.countingAny)
  | .blockedTimerExpiry n _ => .clock :: .lane n :: Part.cond (.laneBlocked n)
  | .admissionExpiry n _ => [.clock, .lane n]
  | .laneSet _ k _ => Part.of k fun n => [.lane n]
  | .admitCar _ k _ _ _ _ => Part.of k fun n => [.lane n, .site]
  | .admitCancel _ k _ => Part.of k fun n => [.lane n]
  | .countRead _ _ => []
  | .countAdjustSetSite _ _ => [.site]
  | .countAdjustClearLane _ k => Part.of k fun n => [.lane n]
  | .seatTimeout n _ => .clock :: Part.counting n
  | .fieldSet _ k _ => Part.of k fun n => .field n :: Part.cond (.fieldFull n)
  | .fieldStatus _ _ => []
  | .menuLoadReplace _ _ _ => [.orders]
  | .menuLoadAppend _ _ _ => [.orders]
  | .menuItemSet _ _ _ _ => [.orders]
  | .stationSet _ _ _ => .orders :: Part.cond .kitchenSaturated
  | .orderingSet _ k _ => Part.of k fun n => .orders :: Part.cond (.orderingOpen n)
  | .orderAccept _ _ => Part.notices
  | .orderStagePreparing _ _ => Part.notices
  | .orderStageReady _ _ _ => Part.kitchen
  | .orderCollected _ _ => Part.kitchen
  | .orderCancel _ _ _ => Part.kitchen
  | .orderRead _ _ => []
  | .acceptanceTimerExpiry _ => .clock :: Part.kitchen
  | .reminderTimerExpiry _ => .clock :: Part.notices
  | .staleTimerExpiry _ => [.clock, .orders]
  | .bayEmptyTimerExpiry _ => [.clock, .orders]

/-- What the turn of a request changes: the request buffer and the busy replies, and the discarded-frame count where there is no
room for a busy reply either (R196). -/
def turnTouches : Instr → List Part
  | .unknownRequest _ _ => [.requests, .discarded]
  | c => if (request? c).isSome then [.requests, .discarded] else []

end Sys2Proof.Machine
end

