-- ==== Sys2Proof/Certificates/Slice0/Obligations.lean ====
section
/-! DEFINITION. The statements about the part: what its commands do by the rules of the manual, what every step keeps, and what
the link and the field lines carry. -/

open Sys2Proof Sys2Proof.Machine

/-! ### The queue of commands, time, and what a command leaves as it was -/

/-- The command at the front of the queue acts on the part with the queue's rest. -/
def Obligations.StepRunsTheFrontCommand : Prop :=
  ∀ (s : State) (c : Instr) (rest : List Instr), s.pending = c :: rest → step s = exec c { s with pending := rest }

/-- On an empty queue a step is one millisecond of the clock, in which an idle transmitter may take a frame. The model's choice
(log 6). -/
def Obligations.StepOnEmptyQueueIsATick : Prop :=
  ∀ s : State, s.pending = [] →
    ∃ t, step s = .next t ∧ t.clock = s.clock + 1 ∧ Reports [] s t ∧ OnlyChanges [.clock, .transmitter] s t

/-- No command stops the part, and none touches the queue of commands. -/
def Obligations.EveryCommandAnswersNext : Prop :=
  ∀ (c : Instr) (s : State), ∃ t, exec c s = .next t ∧ t.pending = s.pending

/-- The frame of every command: what lies outside its list is as it was. That the transmitter takes its next frame at the end of
a command is the model's choice (log 12). -/
def Obligations.CommandsLeaveTheRestUnchanged : Prop :=
  ∀ (c : Instr) (s t : State), exec c s = .next t → OnlyChanges (.transmitter :: (turnTouches c ++ touches c)) s t

/-! ### Resets (R206, R207) -/

/-- The part right after a power-on reset, by the reset rules of the chapters. POWER_ON_RESET latches the rate that the straps
select (R193) and leaves every block as a power-on reset does. The model's own clock, count and queue are kept (logs 3, 19, 32). -/
def Obligations.PowerOnSetsTheResetState : Prop :=
  (let s := State.reset
   (∀ n, (s.screens.get n).state = .empty ∧ (s.screens.get n).position = 0 ∧ (s.screens.get n).cues = []
       ∧ (s.screens.get n).stall = none ∧ (s.screens.get n).maxHold = none ∧ (s.screens.get n).overrun = 0
       ∧ (s.screens.get n).filter = ⟨.waitLow, 0⟩ ∧ (s.screens.get n).settings = ⟨24, 250, false, 5, 300, 0, 600⟩)
     ∧ (∀ n line, ((s.outputs.get n).lines.get line) = ⟨.high, .released, .steady, none, none, none, none⟩
       ∧ boothPin s n line = false ∧ (s.outputs.get n).hold = .released ∧ holdPin s n = false)
     ∧ (∀ n, s.intake.progPresent.get n = false ∧ s.intake.progSilence.get n = none) ∧ s.intake.annPresent = false
     ∧ s.intake.annSilence = none ∧ s.intake.fresh = false ∧ s.intake.slot = 0
     ∧ (∀ n, (s.mixers.get n).settings = ⟨n.toNat, 4096, 0, 1024, 25, 100, false, 4096⟩ ∧ (s.mixers.get n).appliedD = 0
       ∧ (s.mixers.get n).appliedRoute = n ∧ (s.mixers.get n).change = none ∧ (s.mixers.get n).fade = .silent
       ∧ (s.mixers.get n).fadeGain = 0 ∧ (s.mixers.get n).duck = .full ∧ (s.mixers.get n).duckGain = 4096
       ∧ (s.delays.get n).slots = [])
     ∧ s.announce.queue = [] ∧ s.announce.active = [] ∧ (∀ n, s.announce.voices.get n = .idle) ∧ s.announce.sourceLoss = none
     ∧ s.announce.nextId = 1 ∧ s.announce.patterns = defaultPatterns
     ∧ (∀ n, (s.lines.get n).state = .off ∧ (s.lines.get n).sequence = 0 ∧ (s.lines.get n).tallies = ⟨0, 0, 0, 0, 0, 0⟩
       ∧ (s.lines.get n).autoTimer = none ∧ (s.lines.get n).lfault = ⟨false, 0⟩ ∧ (s.lines.get n).settings = ⟨66, 16, false⟩)
     ∧ (∀ n a, (s.node n a).state = .absent ∧ (s.node n a).latch = .empty ∧ (s.node n a).left = ⟨.unknown, true, none⟩
       ∧ (s.node n a).right = ⟨.unknown, true, none⟩ ∧ (s.node n a).position = none ∧ (s.node n a).downToggle = false
       ∧ (s.node n a).upToggle = none ∧ (s.node n a).errors = 0)
     ∧ (∀ n, (s.posts.get n).queue = [] ∧ (s.posts.get n).counter = 1 ∧ (s.posts.get n).pollPosition = none
       ∧ (s.posts.get n).discovery = 96 ∧ (s.posts.get n).cycle = 0 ∧ (s.posts.get n).reqCarrier = false
       ∧ (s.posts.get n).channel = 0 ∧ (s.posts.get n).carrier = false ∧ (s.posts.get n).powerLow = false)
     ∧ (∀ n, (s.surveys.get n).state = .idle ∧ (s.surveys.get n).timer = none ∧ (s.surveys.get n).launch = none
       ∧ (s.surveys.get n).last = none ∧ (s.surveys.get n).taps = [])
     ∧ (∀ n, (s.lane n).decoder = .clear ∧ (s.lane n).held = 0 ∧ (s.lane n).counts = ⟨0, 0, 0, 0, 0⟩ ∧ (s.lane n).queue = []
       ∧ (s.lane n).settings = ⟨if n = .four then .exit else .entry, 4, 120, 120⟩)
     ∧ s.gate.site = 0 ∧ s.gate.nextId = 1
     ∧ (∀ n, (s.fields.get n).inbound = [] ∧ (s.fields.get n).capacity = 0 ∧ (s.fields.get n).seated = 0
       ∧ (s.fields.get n).available = 0 ∧ (s.fields.get n).settings = ⟨0, 900, 4⟩ ∧ fullPin s n = true)
     ∧ s.orders.menu = [] ∧ s.orders.live = [] ∧ s.orders.nextNumber = 1 ∧ s.orders.limit = 900
     ∧ (∀ n, s.orders.staff.get n = 1 ∧ s.orders.backlog.get n = 0 ∧ s.orders.ordering.get n = false ∧ s.orders.windows.get n = [])
     ∧ s.link.rx.state = .startUp ∧ s.link.requests = [] ∧ s.link.busy = [] ∧ s.link.queue = [⟨false, .started .powerOn⟩]
     ∧ s.link.lost = false ∧ s.link.enables = BitVec.allOnes 8 ∧ s.link.rise = BitVec.allOnes 38 ∧ s.link.fall = BitVec.allOnes 38
     ∧ s.link.discarded = 0 ∧ s.link.latch = 0
     ∧ (∀ c, State.level s c = true ↔ ∃ n, c = .fieldFull n))
  ∧ (∀ (s : State) (baud1 baud0 : Bool), ∃ t, exec (.powerOnReset baud1 baud0) s = .next t
       ∧ t.link = { State.reset.link with
           rate := match baud1, baud0 with
             | false, false => .baud115200
             | false, true => .baud460800
             | true, false => .baud921600
             | true, true => .baud2000000 }
       ∧ t = { State.reset with clock := s.clock, freeCount := s.freeCount, pending := s.pending, link := t.link })

/-- An accepted RESTART is answered OK and waits for its reply to be sent, and no request is taken behind it; a body of another
length than one byte is refused with BAD_LENGTH, and a scope other than 01h and 02h with BAD_VALUE (R206). A RESTART whose reply has
been sent takes effect: ALL leaves the power-on values and the rate; STATE leaves the settings and tables of every block as well,
with the enable sets, and nothing that was running (R206, R28, R40, R62, R80, R100, R126, R134, R152, R162, R179). How the effect
waits for the reply is the model's reading (log 13), and so is that a mixer's first block takes the kept settings into use (log 16);
the model's own clock, count and queue are kept (logs 3, 19, 32); a request in turn that spells the other scope is not this
command's turn (log 2). -/
def Obligations.RestartIsAnsweredThenTakesEffect : Prop :=
  ((∀ (s : State) (r : Req), InTurn 0x02#8 r.tag s →
     (Carries [0x01#8] r s →
       ∃ t, exec (.restartAll r) s = .next t ∧ Replied 0x02#8 r.tag .ok .empty s t ∧ t.link.restart = some .all
         ∧ t.link.restartDue = s.link.restartDue ∧ OnlyChanges [.requests, .transmitter, .restart] s t)
     ∧ (Carries [0x02#8] r s →
       ∃ t, exec (.restartState r) s = .next t ∧ Replied 0x02#8 r.tag .ok .empty s t ∧ t.link.restart = some .state
         ∧ t.link.restartDue = s.link.restartDue ∧ OnlyChanges [.requests, .transmitter, .restart] s t)
     ∧ (∀ body, Received body s → body.length ≠ 1 →
       Refuses (.restartAll r) 0x02#8 r.tag .badLength s ∧ Refuses (.restartState r) 0x02#8 r.tag .badLength s)
     ∧ (∀ scope, Received [scope] s → scope ≠ 0x01#8 → scope ≠ 0x02#8 →
       Refuses (.restartAll r) 0x02#8 r.tag .badValue s ∧ Refuses (.restartState r) 0x02#8 r.tag .badValue s)
     ∧ (Received [0x02#8] s → ∃ t, exec (.restartAll r) s = .next t ∧ OnlyChanges [.transmitter] s t)
     ∧ (Received [0x01#8] s → ∃ t, exec (.restartState r) s = .next t ∧ OnlyChanges [.transmitter] s t))
   ∧ ∀ (s : State) (c : Instr) (k : Byte) (r : Req), request? c = some (k, r) → s.link.restart ≠ none →
     ∃ t, exec c s = .next t ∧ OnlyChanges [.transmitter] s t)
  ∧ (∀ s : State,
       (s.link.restartDue = true ∨ ∃ r : Reply, s.link.tx = .reply r ∧ r.kind = 0x82#8 ∧ r.result = .ok) →
       (s.link.restart = some .all → ∃ t, exec .restartTakesEffect s = .next t
         ∧ t = { State.reset with
             clock := s.clock, freeCount := s.freeCount, pending := s.pending
             link := { State.reset.link with rate := s.link.rate, queue := [⟨false, .started .restartAll⟩] } })
       ∧ (s.link.restart = some .state → ∃ t, exec .restartTakesEffect s = .next t
         ∧ t.link = { State.reset.link with
             rate := s.link.rate, enables := s.link.enables, rise := s.link.rise, fall := s.link.fall
             queue := [⟨false, .started .restartState⟩] }
         ∧ (∀ n, t.screens.get n = { (State.reset.screens.get n) with
             state := if (s.screens.get n).cues = [] then .empty else .loaded
             cues := (s.screens.get n).cues.map fun c => { c with fired := false }
             settings := (s.screens.get n).settings })
         ∧ (∀ n line, (t.outputs.get n).lines.get line
             = { ((State.reset.outputs.get n).lines.get line) with sense := ((s.outputs.get n).lines.get line).sense })
         ∧ (∀ n, (t.outputs.get n).hold = .released) ∧ t.intake = State.reset.intake
         ∧ (∀ n, (t.mixers.get n).settings = { (s.mixers.get n).settings with fieldAudio := false } ∧ (t.mixers.get n).fade = .silent
           ∧ (t.mixers.get n).duck = .full ∧ (t.mixers.get n).duckGain = 4096 ∧ (t.mixers.get n).fadeGain = 0
           ∧ (t.mixers.get n).change = none ∧ (t.mixers.get n).appliedD = (s.mixers.get n).settings.delay * 48
           ∧ (∀ k : Nr, k.toNat = (s.mixers.get n).settings.route → (t.mixers.get n).appliedRoute = k)
           ∧ (let v := (s.mixers.get n).settings
              (t.mixers.get n).inUse = ⟨v.trim, v.annGain, v.duckDepth, v.rampDown, v.rampUp⟩)
           ∧ (t.mixers.get n).liveNoted = false ∧ (t.mixers.get n).block = [] ∧ (t.mixers.get n).clamped = false
           ∧ t.delays.get n = State.reset.delays.get n)
         ∧ t.announce = { State.reset.announce with patterns := s.announce.patterns }
         ∧ (∀ n, t.lines.get n = { (State.reset.lines.get n) with settings := (s.lines.get n).settings })
         ∧ (∀ n a, t.node n a = { (State.reset.node n a) with
             state := if (s.node n a).state = .disabled then .disabled else .absent
             left := { (State.reset.node n a).left with enabled := (s.node n a).left.enabled }
             right := { (State.reset.node n a).right with enabled := (s.node n a).right.enabled }
             position := (s.node n a).position })
         ∧ (∀ n, (t.posts.get n).queue = [] ∧ (t.posts.get n).counter = 1 ∧ (t.posts.get n).pollPosition = none
           ∧ (t.posts.get n).discovery = 96 ∧ (t.posts.get n).cycle = 0 ∧ (t.posts.get n).reqCarrier = (s.posts.get n).reqCarrier
           ∧ (t.posts.get n).channel = (s.posts.get n).channel ∧ (t.posts.get n).carrier = (s.posts.get n).carrier
           ∧ (t.posts.get n).powerLow = (s.posts.get n).powerLow)
         ∧ t.surveys = State.reset.surveys
         ∧ (∀ n, t.lane n = { (State.reset.lane n) with settings := (s.lane n).settings }) ∧ t.gate.site = 0 ∧ t.gate.nextId = 1
         ∧ (∀ n, t.fields.get n = { (State.reset.fields.get n) with settings := (s.fields.get n).settings })
         ∧ t.orders = { State.reset.orders with menu := s.orders.menu, staff := s.orders.staff, limit := s.orders.limit }
         ∧ t.clock = s.clock ∧ t.pending = s.pending))

/-! ### The control link (chapter 12) -/

/-- A character is one low start bit, the 8 data bits from the least significant on, and one high stop bit. Bytes sent as characters
back to back are read as those bytes, and a character with a low stop bit as a framing error (R193). A frame sent so to a receiver
in HUNT is found, whole, and becomes a waiting request with the kind, tag and body that were sent (R194, R195, R196). A frame given
byte by byte is log 36's, and where the next character begins is log 41's. -/
def Obligations.SentFrameIsReceived : Prop :=
  (∀ b : Byte, characterBits b = [false, b.getLsbD 0, b.getLsbD 1, b.getLsbD 2, b.getLsbD 3, b.getLsbD 4, b.getLsbD 5, b.getLsbD 6,
     b.getLsbD 7, true])
  ∧ (∀ bytes : List Byte, rxdEvents (bytes.flatMap characterBits) = bytes.map .linkByteReceived)
  ∧ (∀ (b : Byte) (rest : List Bool), rxdEvents (false :: byteBits b ++ false :: rest) = .framingError :: rxdEvents rest)
  ∧ ∀ (s : State) (kind tag : Byte) (body : List Byte), s.link.rx = ⟨.hunt, [], none⟩ → body.length ≤ 512 →
    s.link.requests.length < 4 →
    ∃ t, Runs (rxdEvents ((linkFrame kind tag body).flatMap characterBits)) s t
      ∧ t.link.requests = s.link.requests ++ [⟨kind, tag, some body, none⟩] ∧ t.link.rx = ⟨.hunt, [], none⟩
      ∧ t.link.busy = s.link.busy ∧ OnlyChanges [.receiver, .requests, .transmitter] s t

/-- A byte at the receiver: in START_UP it is discarded; in HUNT a byte other than C5h is dropped and C5h moves to LENGTH; in
LENGTH and FRAME it joins the bytes kept and restarts the gap timer while the frame is not complete (R195, R207). When the gap
timer runs is log 29's reading. Moments are counts of the model's own clock, the model's choice (log 3). -/
def Obligations.ReceiverTakesBytes : Prop :=
  ∀ (s : State) (b : Byte), ∃ t, exec (.linkByteReceived b) s = .next t
    ∧ (s.link.rx.state = .startUp → OnlyChanges [.transmitter] s t)
    ∧ (s.link.rx = ⟨.hunt, [], none⟩ → b ≠ 0xC5#8 → OnlyChanges [.transmitter] s t)
    ∧ (s.link.rx.state = .hunt → b = 0xC5#8 →
      t.link.rx = ⟨.length, [], some (s.clock + 50)⟩ ∧ OnlyChanges [.receiver, .transmitter] s t)
    ∧ (s.link.rx.state = .length → s.link.rx.kept = [] →
      t.link.rx = ⟨.length, [b], some (s.clock + 50)⟩ ∧ OnlyChanges [.receiver, .transmitter] s t)
    ∧ (s.link.rx.state = .length → ∀ lo, s.link.rx.kept = [lo] → 2 ≤ lo.toNat + 256 * b.toNat →
      lo.toNat + 256 * b.toNat ≤ 514 →
      t.link.rx = ⟨.frame, [lo, b], some (s.clock + 50)⟩ ∧ OnlyChanges [.receiver, .transmitter] s t)
    ∧ (s.link.rx.state = .frame → ∀ lo hi more, s.link.rx.kept = lo :: hi :: more → 2 ≤ lo.toNat + 256 * hi.toNat →
      lo.toNat + 256 * hi.toNat ≤ 514 → more.length + 1 < lo.toNat + 256 * hi.toNat + 2 →
      t.link.rx = ⟨.frame, s.link.rx.kept ++ [b], some (s.clock + 50)⟩ ∧ OnlyChanges [.receiver, .transmitter] s t)

/-- The last check byte of a frame. A frame whose check matches becomes a waiting request, or a BUSY reply where the buffer holds
four, or is dropped and counted where four BUSY replies wait as well (R196). One whose check fails is discarded and counted, and the
bytes after its marker are hunted through (R195). 50 ms without a byte and a framing error discard the frame being received: it is
counted, and the bytes after its marker are hunted through; without a marker among them the receiver is in HUNT again. A framing
error in HUNT is ignored (R193, R195). So it is for every frame that is discarded, by a length outside 2-514, by its check, by the
gap or by a framing error, and whatever bytes it held: it is counted, and the receiver then stands, with the requests, replies and
counts, as if the bytes after the marker had come one by one to a receiver in HUNT (R195). The receiver's rows are split as logs 29
and 36 say. Moments are counts of the model's own clock, the model's choice (log 3). -/
def Obligations.FramesAreHandedOnOrDiscarded : Prop :=
  (∀ (s : State) (kind tag : Byte) (body : List Byte) (kept : List Byte) (b : Byte),
     s.link.rx.state = .frame → s.link.rx.kept = kept → body.length ≤ 512 →
     (marker :: kept ++ [b] = linkFrame kind tag body →
       (s.link.requests.length < 4 → ∃ t, exec (.frameReceived b) s = .next t ∧ t.link.rx = ⟨.hunt, [], none⟩
         ∧ t.link.requests = s.link.requests ++ [⟨kind, tag, some body, none⟩] ∧ t.link.busy = s.link.busy
         ∧ OnlyChanges [.receiver, .requests, .transmitter] s t)
       ∧ (4 ≤ s.link.requests.length → s.link.busy.length < 4 → ∃ t, exec (.frameReceived b) s = .next t
         ∧ t.link.rx = ⟨.hunt, [], none⟩ ∧ t.link.requests = s.link.requests
         ∧ t.link.busy = s.link.busy ++ [⟨s.link.replyCount, kind + 0x80#8, tag, .busy, .empty⟩]
         ∧ OnlyChanges [.receiver, .requests, .transmitter] s t)
       ∧ (4 ≤ s.link.requests.length → 4 ≤ s.link.busy.length → ∃ t, exec (.frameReceived b) s = .next t
         ∧ t.link.rx = ⟨.hunt, [], none⟩ ∧ t.link.discarded = s.link.discarded + 1
         ∧ OnlyChanges [.receiver, .discarded, .transmitter] s t))
     ∧ (∀ lo hi more, kept ++ [b] = lo :: hi :: more → 2 ≤ lo.toNat + 256 * hi.toNat → lo.toNat + 256 * hi.toNat ≤ 514 →
       more.length = lo.toNat + 256 * hi.toNat + 2 → crcMatches (kept ++ [b]) = false →
       (huntAll (kept ++ [b])).frames = [] →
       ∃ t, exec (.frameReceived b) s = .next t
         ∧ t.link.discarded = s.link.discarded + 1 + BitVec.ofNat 32 (huntAll (kept ++ [b])).discards
         ∧ t.link.rx.state = (huntAll (kept ++ [b])).state ∧ t.link.rx.kept = (huntAll (kept ++ [b])).kept
         ∧ OnlyChanges [.receiver, .discarded, .transmitter] s t))
  ∧ (∀ s : State,
       (∀ d, s.link.rx.gap = some d → (∀ b ∈ s.link.rx.kept, b ≠ 0xC5#8) →
         ∃ t, exec .gapTimerExpiry s = .next t ∧ t.clock = max s.clock d ∧ t.link.discarded = s.link.discarded + 1
           ∧ t.link.rx = ⟨.hunt, [], none⟩ ∧ OnlyChanges [.clock, .receiver, .discarded, .transmitter] s t)
       ∧ ((s.link.rx.state = .length ∨ s.link.rx.state = .frame) → (∀ b ∈ s.link.rx.kept, b ≠ 0xC5#8) →
         ∃ t, exec .framingError s = .next t ∧ t.link.discarded = s.link.discarded + 1 ∧ t.link.rx = ⟨.hunt, [], none⟩
           ∧ OnlyChanges [.receiver, .discarded, .transmitter] s t)
       ∧ ((s.link.rx.state = .hunt ∨ s.link.rx.state = .startUp) →
         ∃ t, exec .framingError s = .next t ∧ OnlyChanges [.transmitter] s t))
  ∧ (∀ s : State,
       let kept := s.link.rx.kept
       -- the frame being received is discarded at a moment, and the bytes after its marker are hunted through
       let discards (c : Instr) (bytes : List Byte) (clock : Nat) : Prop := ∃ t u, exec c s = .next t
         ∧ Runs (bytes.map .linkByteReceived) { s with
             clock := clock, link := { s.link with rx := ⟨.hunt, [], none⟩, discarded := s.link.discarded + 1 } } u
         ∧ t.link.rx = u.link.rx ∧ t.link.requests = u.link.requests ∧ t.link.busy = u.link.busy
         ∧ t.link.replyCount = u.link.replyCount ∧ t.link.discarded = u.link.discarded ∧ t.clock = clock
         ∧ OnlyChanges [.clock, .receiver, .requests, .discarded, .transmitter] s t
       (∀ lo b : Byte, s.link.rx.state = .length → kept = [lo] →
         (lo.toNat + 256 * b.toNat < 2 ∨ 514 < lo.toNat + 256 * b.toNat) → discards (.linkByteReceived b) [lo, b] s.clock)
       ∧ (∀ lo hi more b, s.link.rx.state = .frame → kept ++ [b] = lo :: hi :: more → 2 ≤ lo.toNat + 256 * hi.toNat →
         lo.toNat + 256 * hi.toNat ≤ 514 → more.length = lo.toNat + 256 * hi.toNat + 2 → crcMatches (kept ++ [b]) = false →
         discards (.frameReceived b) (kept ++ [b]) s.clock ∧ discards (.linkByteReceived b) (kept ++ [b]) s.clock)
       ∧ (∀ d, s.link.rx.gap = some d → discards .gapTimerExpiry kept (max s.clock d))
       ∧ (s.link.rx.state = .length ∨ s.link.rx.state = .frame → discards .framingError kept s.clock))

/-- The end of a frame that is being sent. A sent reply's request leaves the buffer, and its room is free; a sent busy reply
leaves the busy replies; the end of STARTED opens the receiver (R197, R206, R207). The transmitter's choice at the end of a
report, at the end of a reply among what then waits, and when idle: the reply made earliest, in the request buffer or among the
busy replies; else the oldest report, which leaves the queue; else it stays idle; and no command but a reset leaves it idle while
something waits (R197). What is sent: a reply's frame carries its result byte, and after it at most 511 bytes, none for a result
other than OK or for a kind that lays down no body; a report's has tag 0 and its report flags byte with the lost bit; the bits on
TXD are the frame's characters back to back (R193, R194, R196, R198, R200). When the transmitter chooses is log 12's. -/
def Obligations.TransmitterSendsRepliesFirst : Prop :=
  -- the choice among these requests, busy replies and reports
  let chooses (requests : List Request) (busy : List Reply) (queue : List QueuedReport) (t : State) : Prop :=
    (∀ r, (r ∈ busy ∨ ∃ p ∈ requests, p.reply = some r) →
      ∃ a, (t.link.tx = .reply a ∧ (∃ p ∈ requests, p.reply = some a) ∨ t.link.tx = .busy a ∧ a ∈ busy)
        ∧ a.made ≤ r.made ∧ t.link.queue = queue)
    ∧ (busy = [] → (∀ p ∈ requests, p.reply = none) →
      (∀ first rest, queue = first :: rest → t.link.tx = .report first ∧ t.link.queue = rest)
      ∧ (queue = [] → t.link.tx = .idle ∧ t.link.queue = []))
  (∀ s : State,
     (∀ r, s.link.tx = .reply r → ∃ t, exec .frameSent s = .next t
       ∧ t.link.requests = s.link.requests.filter (fun q => decide (q.reply ≠ some r)) ∧ t.link.busy = s.link.busy
       ∧ (s.link.restart.isSome = true → r.kind = 0x82#8 → r.result = .ok → t.link.restartDue = true)
       ∧ OnlyChanges [.requests, .transmitter, .restart] s t)
     ∧ (∀ r, s.link.tx = .busy r → ∃ t, exec .frameSent s = .next t
       ∧ t.link.busy = s.link.busy.filter (fun b => decide (b ≠ r)) ∧ t.link.requests = s.link.requests
       ∧ OnlyChanges [.requests, .transmitter] s t)
     ∧ (∀ lost reason, s.link.tx = .report ⟨lost, .started reason⟩ → s.link.rx.state = .startUp →
       ∃ t, exec .frameSent s = .next t ∧ t.link.rx = ⟨.hunt, [], none⟩ ∧ OnlyChanges [.receiver, .transmitter] s t))
  ∧ (∀ (s : State) (q : QueuedReport), s.link.tx = .report q → (∀ reason, q.report ≠ .started reason) → s.link.restartDue = false →
       ∃ t, exec .frameSent s = .next t ∧ OnlyChanges [.transmitter] s t
         ∧ chooses s.link.requests s.link.busy s.link.queue t)
  ∧ (∀ (s : State) (r : Reply), s.link.restartDue = false →
       (s.link.tx = .reply r → s.link.restart = none ∨ r.kind ≠ 0x82#8 ∨ r.result ≠ .ok → ∃ t, exec .frameSent s = .next t
         ∧ chooses (s.link.requests.filter fun q => decide (q.reply ≠ some r)) s.link.busy s.link.queue t)
       ∧ (s.link.tx = .busy r → ∃ t, exec .frameSent s = .next t
         ∧ chooses s.link.requests (s.link.busy.filter fun b => decide (b ≠ r)) s.link.queue t))
  ∧ (∀ s : State, s.link.tx = .idle → s.link.restartDue = false → s.link.rx.state = .hunt →
       ∃ t, exec .framingError s = .next t ∧ chooses s.link.requests s.link.busy s.link.queue t)
  ∧ (∀ (c : Instr) (s t : State), (∀ a b, c ≠ .powerOnReset a b) → c ≠ .restartTakesEffect → exec c s = .next t →
       t.link.restartDue = false → t.link.tx = .idle →
       t.link.busy = [] ∧ (∀ p ∈ t.link.requests, p.reply = none) ∧ t.link.queue = [])
  ∧ (∀ (s : State) (r : Reply), (s.link.tx = .reply r ∨ s.link.tx = .busy r) →
       ∃ body : List Byte, body.length ≤ 511 ∧ (r.result ≠ .ok ∨ r.body = .empty → body = [])
         ∧ txdBits s = some ((linkFrame r.kind r.tag (Result.code r.result :: body)).flatMap characterBits))
  ∧ (∀ (s : State) (q : QueuedReport), s.link.tx = .report q →
       ∃ body : List Byte, body.length ≤ 511
         ∧ txdBits s = some ((linkFrame (Report.code q.report) 0x00#8 ((if q.lost then 0x01#8 else 0x00#8) :: body)).flatMap characterBits))

/-- The making of a report: none of a disabled source; discarded with the lost mark set where 32 wait; else at the end of the queue,
with the lost bit that tells of the mark, which it clears (R200). The taking of a condition's level by the link: the live level
follows; a change in an enabled direction sets the latch and makes a CONDITION report with the condition's number, its field or
lane, the level and the latch, of an audio condition only while AUDIO is enabled too; a change in a direction that is not enabled
sets no latch and makes no report (R202). The body of a report after its report flags byte: STARTED's reason byte (R207); of another
the items that its rule lists, in the order listed, each number low byte first, and whole within its range (R194, R198 and the rules
of the reports). How wide a number is beyond its range, the codes of named values, the counts of lines and what stands for an item
that a report has not are free (log 10); the parameters of a cue's action are log 42's. -/
def Obligations.ReportsAndConditionsAreMade : Prop :=
  (∀ (s : State) (source : Source) (r : Report),
     (Link.enabled s.link source = false → s.report source r = s)
     ∧ (Link.enabled s.link source = true → 32 ≤ s.link.queue.length →
       (s.report source r).link = { s.link with lost := true })
     ∧ (Link.enabled s.link source = true → s.link.queue.length < 32 →
       (s.report source r).link = { s.link with queue := s.link.queue ++ [⟨s.link.lost, r⟩], lost := false })
     ∧ OnlyChanges [.transmitter] s (s.report source r))
  ∧ (∀ (s : State) (c : Cond) (level : Bool),
       let t := s.setCond c level
       (∀ d, State.level t d = if d = c then level else State.level s d)
       ∧ (State.level s c = level → t = s)
       ∧ (State.level s c ≠ level → (if level then s.link.rise else s.link.fall).getLsbD (Cond.number c) = false →
         t.link.latch = s.link.latch ∧ t.link.queue = s.link.queue ∧ t.link.lost = s.link.lost)
       ∧ (State.level s c ≠ level → (if level then s.link.rise else s.link.fall).getLsbD (Cond.number c) = true →
         (∀ d, t.link.latch.getLsbD (Cond.number d) = (decide (d = c) || s.link.latch.getLsbD (Cond.number d)))
         ∧ (Link.enabled s.link .condition = true → (Cond.number c ≤ 8 → Link.enabled s.link .audio = true) →
           s.link.queue.length < 32 →
           t.link.queue = s.link.queue ++ [⟨s.link.lost, .condition (Cond.number c) (Cond.scope c) level true⟩])
         ∧ ((Link.enabled s.link .condition = false ∨ (Cond.number c ≤ 8 ∧ Link.enabled s.link .audio = false)) →
           t.link.queue = s.link.queue)))
  ∧ (∀ (s : State) (lost : Bool) (r : Report), s.link.tx = .report ⟨lost, r⟩ →
       ∃ body : List Byte, txdFrame s = some (linkFrame (Report.code r) 0x00#8 ((if lost then 0x01#8 else 0x00#8) :: body))
         ∧ (∀ reason, r = .started reason → body = [match reason with
             | .powerOn => 0x00#8
             | .restartAll => 0x01#8
             | .restartState => 0x02#8])
         ∧ ((∀ reason, r ≠ .started reason) → body = (r.items.flatMap (Item.bytes (Report.code r))).take 511))
  ∧ (∀ (kind : Byte) (name : ItemName) (v : Nat), v < 256 ^ name.leastBytes →
       (Item.bytes kind (.number name v)).foldr (fun b rest => b.toNat + 256 * rest) 0 = v)
  ∧ (let names (r : Report) : List ItemName := r.items.map Item.name
     -- the numbers among the items, with their names
     let numbers (r : Report) : List (ItemName × Nat) := r.items.filterMap fun
       | .number name v => some (name, v)
       | _ => none
     (∀ n previous new position cause, names (.showState n previous new position cause)
         = [.screen, .previousState, .newState, .position, .cause]
       ∧ numbers (.showState n previous new position cause) = [(.screen, n.toNat), (.position, position)])
     ∧ (∀ n number position outcome,
       (∀ action, ∃ of_, names (.cueFired n number position action outcome)
           = [.screen, .cueNumber, .position, .action] ++ of_ ++ [.outcome])
       ∧ (∀ code, numbers (.cueFired n number position (.mark code) outcome)
           = [(.screen, n.toNat), (.cueNumber, number), (.position, position), (.actionCode, code)]))
     ∧ (∀ n number position inbound threshold, (Report.holdBegan n number position inbound threshold).items
         = [.number .screen n.toNat, .number .cueNumber number, .number .position position, .number .inboundCount inbound,
           .number .holdThreshold threshold])
     ∧ (∀ n reason overrun position, names (.holdEnded n reason overrun position) = [.screen, .reason, .overrunCount, .position]
       ∧ numbers (.holdEnded n reason overrun position) = [(.screen, n.toNat), (.overrunCount, overrun), (.position, position)])
     ∧ (∀ number place level latch, names (.condition number place level latch) = [.condition, .place, .level, .latch]
       ∧ numbers (.condition number place level latch) = [(.condition, number), (.place, place)])
     ∧ (∀ id kind pattern targets priority origin mark, names (.announceState id kind pattern targets priority origin mark)
         = [.announcementId, .announcementKind, .pattern, .targets, .priority, .origin, .phase, .reason]
       ∧ numbers (.announceState id kind pattern targets priority origin mark)
         = [(.announcementId, id), (.pattern, pattern), (.priority, priority)])
     ∧ (∀ origin n pattern priority, names (.announceDropped origin n pattern priority) = [.origin, .field, .pattern, .priority]
       ∧ numbers (.announceDropped origin n pattern priority) = [(.field, n.toNat), (.pattern, pattern), (.priority, priority)])
     ∧ (∀ n previous new cause, names (.lineState n previous new cause) = [.field, .previousState, .newState, .cause]
       ∧ numbers (.lineState n previous new cause) = [(.field, n.toNat)])
     ∧ (∀ n address previous new cause detail, names (.postState n address previous new cause detail)
         = [.field, .address, .previousState, .newState, .cause] ++ (match detail with
           | .post .. => [.speakerFault, .keypadFault, .leftPresence, .rightPresence]
           | .exciter .. => [.carrier, .power])
       ∧ numbers (.postState n address previous new cause detail) = [(.field, n.toNat), (.address, address)])
     ∧ (∀ n address side call, names (.postCall n address side call) = [.field, .address, .side, .callKind]
       ∧ numbers (.postCall n address side call) = [(.field, n.toNat), (.address, address)])
     ∧ (∀ n address number kind source reason, names (.downFailed n address number kind source reason)
         = [.field, .address, .messageNumber, .messageKind, .messageSource, .orderNumber, .reason]
       ∧ numbers (.downFailed n address number kind source reason)
         = [(.field, n.toNat), (.address, address), (.messageNumber, number)] ++ (match source with
           | .host => []
           | .order order => [(.orderNumber, order)]))
     ∧ (∀ n outcome cause velocity threshold records, names (.surveyDone n outcome cause velocity threshold records)
         = [.field, .outcome, .cause, .velocity, .surveyThreshold, .recordCount]
           ++ (records.flatMap fun _ => [.tap, .reflectionKind, .magnitude, .distance, .nearestPost])
       ∧ numbers (.surveyDone n outcome cause velocity threshold records)
         = [(.field, n.toNat), (.velocity, velocity), (.surveyThreshold, threshold), (.recordCount, records.length)]
           ++ records.flatMap fun x => [(.tap, x.tap), (.magnitude, x.magnitude), (.distance, x.distance)]
             ++ x.nearest.toList.map fun a => (.nearestPost, a))
     ∧ (∀ n direction flags admission site, names (.pass n direction flags admission site)
         = [.lane, .direction, .passFlags] ++ (match admission with
           | none => [.admission]
           | some _ => [.admissionId, .field, .vehicleClass, .occupants]) ++ [.siteCount]
       ∧ numbers (.pass n direction flags admission site) = (.lane, n.toNat) :: (match admission with
           | none => []
           | some a => [(.admissionId, a.id), (.field, a.field.toNat), (.occupants, a.occupants)]) ++ [(.siteCount, site)])
     ∧ (∀ n id k cls occupants waited, names (.admitExpired n id k cls occupants waited)
         = [.lane, .admissionId, .field, .vehicleClass, .occupants, .waited]
       ∧ numbers (.admitExpired n id k cls occupants waited)
         = [(.lane, n.toNat), (.admissionId, id), (.field, k.toNat), (.occupants, occupants), (.waited, waited)])
     ∧ (∀ n id reason waited count, names (.inboundExpired n id reason waited count)
         = [.field, .admissionId, .reason, .waited, .inboundCount]
       ∧ numbers (.inboundExpired n id reason waited count)
         = [(.field, n.toNat), (.admissionId, id), (.waited, waited), (.inboundCount, count)])
     ∧ ∀ number n post side mode, let bay := [(.orderNumber, number), (.field, n.toNat), (.address, post)]
       (∀ lines total estimate work, names (.orderNew number n post side mode lines total estimate work)
           = [.orderNumber, .field, .address, .side, .mode, .lineCount] ++ (lines.flatMap fun _ => [.itemCode, .quantity])
             ++ [.total, .estimate, .work, .work, .work, .work]
         ∧ numbers (.orderNew number n post side mode lines total estimate work)
           = bay ++ (lines.flatMap fun l => [(.itemCode, l.code), (.quantity, l.quantity)])
             ++ [(.total, total), (.estimate, estimate), (.work, work.one), (.work, work.two), (.work, work.three), (.work, work.four)])
       ∧ (∀ state reason booth, names (.orderEnded number n post side mode state reason booth)
           = [.orderNumber, .field, .address, .side, .mode, .state, .reason, .boothReason]
         ∧ numbers (.orderEnded number n post side mode state reason booth) = bay)
       ∧ (∀ window seconds, names (.orderStale number n post side mode window seconds)
           = [.orderNumber, .field, .address, .side, .mode, .window, .seconds]
         ∧ numbers (.orderStale number n post side mode window seconds)
           = bay ++ (window.toList.map fun w => (.window, w.toNat)) ++ [(.seconds, seconds)])
       ∧ (∀ state, names (.orderBayEmpty number n post side state mode)
           = [.orderNumber, .field, .address, .side, .state, .mode]
         ∧ numbers (.orderBayEmpty number n post side state mode) = bay))

/-- Every request in its turn is answered once, with the request's kind plus 80h and its tag. One whose body has the wrong length
is answered BAD_LENGTH; one with a coded byte that is none of its codes BAD_VALUE, or BAD_LENGTH if its length is wrong too. A
request answered with a result other than OK carries the result byte alone and changes nothing (R196). A request of a kind
outside the table of section 12.4 is answered UNKNOWN_REQUEST, a kind of 80h or above with that kind less 80h (R196). A command's
form stands for the reading of bytes that no rule lays out, the model's choice (log 1); where the bytes spell another command, it
is not this one's turn (log 2). -/
def Obligations.RequestsAreAnsweredInTurn : Prop :=
  (∀ (s : State) (c : Instr) (kind : Byte) (r : Req), request? c = some (kind, r) → InTurn kind r.tag s →
     (∀ form, readsAs c kind r s = some form →
       ∃ t result body, exec c s = .next t ∧ Replied kind r.tag result body s t
         ∧ (result ≠ .ok → body = .empty ∧ OnlyChanges [.requests, .transmitter] s t)
         ∧ (form = .wrongLength → result = .badLength)
         ∧ (form = .unknownCode → result = .badValue ∨ result = .badLength))
     ∧ (readsAs c kind r s = none → ∃ t, exec c s = .next t ∧ OnlyChanges [.transmitter] s t))
  ∧ (∀ (s : State) (tag kind : Byte), kind ∉ knownKinds → InTurn kind tag s →
       Refuses (.unknownRequest tag kind) kind tag .unknownRequest s)

/-- A request command whose frame has not come before: where no request waits and the receiver is in HUNT, it stands for the arrival
of its frame as well; where the buffer holds four, the frame is answered BUSY; where another request is the next in turn, nothing
happens. The model's choice (log 2). -/
def Obligations.RequestCommandBringsItsFrame : Prop :=
  ∀ (s : State) (c : Instr) (kind : Byte) (r : Req), request? c = some (kind, r) → s.link.restart = none →
    (s.link.rx.state = .hunt → (∀ q ∈ s.link.requests, q.reply ≠ none) →
      (s.link.requests.length < 4 →
        exec c s = exec c (s.setLink { s.link with requests := s.link.requests ++ [⟨kind, r.tag, none, none⟩] }))
      ∧ (4 ≤ s.link.requests.length → s.link.busy.length < 4 →
        ∃ t, exec c s = .next t ∧ t.link.requests = s.link.requests
          ∧ t.link.busy = s.link.busy ++ [⟨s.link.replyCount, kind + 0x80#8, r.tag, .busy, .empty⟩]
          ∧ OnlyChanges [.requests, .transmitter] s t))
    ∧ (∀ q, Link.waiting s.link = some q → (q.kind ≠ kind ∨ q.tag ≠ r.tag) →
      ∃ t, exec c s = .next t ∧ OnlyChanges [.transmitter] s t)

/-- REPORT_MASK: its body is a selector byte, an operation byte and a set of one byte or five; WRITE replaces, SET adds to and CLEAR
removes from the selected set, and the reply carries the three sets; a body whose length does not match its selector is refused with
BAD_LENGTH, and an unknown selector or operation and bits that name no condition with BAD_VALUE; no level, latch or report changes
(R199). IDENTIFY, LINK_STATUS and CONDITION_READ without a body are answered in every state of the part, and with one refused with
BAD_LENGTH; CONDITION_READ gives the levels and latches as they stand and then clears the latches, and the others change nothing
(R203, R205). The levels and latches stand in CONDITION_READ's reply as two sets of five bytes, condition k in bit k mod 8 of byte
k / 8 (R203). That the three sets stand in REPORT_MASK's reply in one byte, five and five, as R199 lays them out in its request, is
the model's choice, an inference (log 10). That an unknown selector has one of the two lengths is log 1's. -/
def Obligations.LinkRequestsAreAnswered : Prop :=
  (∀ (s : State) (r : Req) (op : MaskOp) (selector : Selector) (bits : BitVec 40), InTurn 0x03#8 r.tag s →
     let c : Instr := match op with
       | .write => .reportMaskWrite r selector bits
       | .set => .reportMaskSet r selector bits
       | .clear => .reportMaskClear r selector bits
     let code : Byte := match op with
       | .write => 0x00#8
       | .set => 0x01#8
       | .clear => 0x02#8
     let five : List Byte := [bits.extractLsb' 0 8, bits.extractLsb' 8 8, bits.extractLsb' 16 8, bits.extractLsb' 24 8,
       bits.extractLsb' 32 8]
     let carried := Carries (match selector with
       | .sources => [0x00#8, code, bits.extractLsb' 0 8]
       | .rise => 0x01#8 :: code :: five
       | .fall => 0x02#8 :: code :: five) r s
     (∀ body, Received body s →
       (body.length < 2 → Refuses c 0x03#8 r.tag .badLength s)
       ∧ ∀ selectorByte codeByte set, body = selectorByte :: codeByte :: set →
         (selectorByte = 0x00#8 → set.length ≠ 1 → Refuses c 0x03#8 r.tag .badLength s)
         ∧ (selectorByte = 0x01#8 ∨ selectorByte = 0x02#8 → set.length ≠ 5 → Refuses c 0x03#8 r.tag .badLength s)
         ∧ (0x02#8 < codeByte → selectorByte = 0x00#8 → set.length = 1 → Refuses c 0x03#8 r.tag .badValue s)
         ∧ (0x02#8 < codeByte → selectorByte = 0x01#8 ∨ selectorByte = 0x02#8 → set.length = 5 → Refuses c 0x03#8 r.tag .badValue s)
         ∧ (0x02#8 < selectorByte → set.length = 1 ∨ set.length = 5 → Refuses c 0x03#8 r.tag .badValue s))
     ∧ (carried → selector ≠ .sources → (bits.getLsbD 38 = true ∨ bits.getLsbD 39 = true) → Refuses c 0x03#8 r.tag .badValue s)
     ∧ (carried → (selector = .sources ∨ (bits.getLsbD 38 = false ∧ bits.getLsbD 39 = false)) →
       ∃ t, exec c s = .next t
         ∧ Replied 0x03#8 r.tag .ok (.masks t.link.enables t.link.rise t.link.fall) s t
         ∧ (∀ k, k < 8 → t.link.enables.getLsbD k = if selector = .sources then
             (match op with
               | .write => bits.getLsbD k
               | .set => s.link.enables.getLsbD k || bits.getLsbD k
               | .clear => s.link.enables.getLsbD k && !bits.getLsbD k)
           else s.link.enables.getLsbD k)
         ∧ (∀ k, k < 38 → t.link.rise.getLsbD k = if selector = .rise then
             (match op with
               | .write => bits.getLsbD k
               | .set => s.link.rise.getLsbD k || bits.getLsbD k
               | .clear => s.link.rise.getLsbD k && !bits.getLsbD k)
           else s.link.rise.getLsbD k)
         ∧ (∀ k, k < 38 → t.link.fall.getLsbD k = if selector = .fall then
             (match op with
               | .write => bits.getLsbD k
               | .set => s.link.fall.getLsbD k || bits.getLsbD k
               | .clear => s.link.fall.getLsbD k && !bits.getLsbD k)
           else s.link.fall.getLsbD k)
         ∧ Reports [] s t ∧ OnlyChanges [.requests, .transmitter, .enables] s t))
  ∧ (∀ (s : State) (r : Req) (body : List Byte), Received body s → body ≠ [] →
       (InTurn 0x01#8 r.tag s → Refuses (.identify r) 0x01#8 r.tag .badLength s)
       ∧ (InTurn 0x06#8 r.tag s → Refuses (.linkStatus r) 0x06#8 r.tag .badLength s)
       ∧ (InTurn 0x04#8 r.tag s → Refuses (.conditionRead r) 0x04#8 r.tag .badLength s))
  ∧ (∀ (s : State) (r : Req), Carries [] r s →
       (InTurn 0x01#8 r.tag s → ∃ t, exec (.identify r) s = .next t
         ∧ Replied 0x01#8 r.tag .ok (.identity 0x2C7A 460 1 2 Config.serialNumber 4) s t
         ∧ OnlyChanges [.requests, .transmitter] s t)
       ∧ (InTurn 0x06#8 r.tag s → ∃ t, exec (.linkStatus r) s = .next t
         ∧ Replied 0x06#8 r.tag .ok (.linkStatus s.link.rate s.link.discarded s.link.requests.length s.link.busy.length
             s.link.queue.length s.link.lost) s t
         ∧ OnlyChanges [.requests, .transmitter] s t)
       ∧ (InTurn 0x04#8 r.tag s → ∃ t, exec (.conditionRead r) s = .next t
         ∧ Replied 0x04#8 r.tag .ok (.conditions s.link.live s.link.latch) s t ∧ t.link.latch = 0
         ∧ OnlyChanges (.requests :: .transmitter :: Part.latches) s t))
  ∧ (∀ (made : Nat) (tag : Byte) (sources : BitVec 8) (v w : BitVec 38),
       let five (x : BitVec 38) : List Byte := [x.extractLsb' 0 8, x.extractLsb' 8 8, x.extractLsb' 16 8, x.extractLsb' 24 8,
         x.extractLsb' 32 8]
       Reply.frame ⟨made, 0x83#8, tag, .ok, .masks sources v w⟩ = linkFrame 0x83#8 tag (0x00#8 :: sources :: (five v ++ five w))
       ∧ Reply.frame ⟨made, 0x84#8, tag, .ok, .conditions v w⟩ = linkFrame 0x84#8 tag (0x00#8 :: (five v ++ five w)))

/-- The entries of the eight collections, in their order (R204), and what they tell of a node's record, of an admission and of an
order of a window: the record with its times and its outstanding message as POST_READ gives it (R125), the whole seconds since its
arrival and up to its expiry (R145), the whole seconds since it became READY (R185). LIST_READ returns the entries from the start
index on, as many as asked or fewer where the collection ends or the body is full, at least one where one exists, and says where the
next run begins; an unknown collection, a parameter outside its range, a start of FFFFh or a count of 0 is refused. It changes
nothing (R204). How many bytes each entry takes is left open (log 11). Moments are counts of the model's own clock, the model's
choice (log 3). -/
def Obligations.ListReadsReturnRunsOfTheCollections : Prop :=
  (∀ (s : State) (n : Nr),
     entriesOf s 1 n.toNat = some ((s.screens.get n).cues.map .cue)
     ∧ (∃ l, entriesOf s 2 n.toNat = some l ∧ l.length = 97 ∧ ∀ a : Fin 97, l[a.val]? = some (.node (nodeReadout s n a)))
     ∧ entriesOf s 3 n.toNat = some ((s.lane n).queue.map fun a => .admission (admissionReadout s a))
     ∧ entriesOf s 4 n.toNat = some ((s.fields.get n).inbound.map fun e =>
         .inbound e.id ((s.clock - e.arrived) / 1000) ((e.timer - s.clock + 999) / 1000))
     ∧ entriesOf s 5 0 = some (s.orders.live.map fun o => .order (orderReadout s o))
     ∧ entriesOf s 6 n.toNat = some ((s.orders.windows.get n).filterMap fun k =>
         (s.orders.find k).map fun o => .window (windowReadout s o))
     ∧ entriesOf s 7 0 = some ((s.announce.active ++ s.announce.queue).map fun a =>
         .announcement { a with timer := none } (match a.timer with
           | none => 0
           | some d => (d - s.clock + 999) / 1000))
     ∧ entriesOf s 8 0 = some (s.orders.menu.map .item))
  ∧ (∀ (s : State) (n : Nr) (a : Fin 97) (out : Option OutstandingReadout),
       let v := s.node n a
       let p := s.posts.get n
       let seconds (timer : Option Nat) : Nat := match timer with
         | none => 0
         | some d => (d - s.clock + 999) / 1000
       let emptied (b : Bay) : Nat := match b.emptySince with
         | none => 0xFFFF
         | some moment => min 65534 ((s.clock - moment) / 1000)
       -- `out` is the node's outstanding message
       ((∀ e ∈ p.queue, e.address = a.val → e.mark = .waiting) → out = none) →
       (∀ before e after sends polls, p.queue = before ++ e :: after → (∀ q ∈ before, q.address = a.val → q.mark = .waiting) →
         e.address = a.val → e.mark = .outstanding sends polls →
         out = some ⟨e.number, e.msg.kind, sends, polls, decide (polls = 3)⟩) →
       nodeReadout s n a = if a = 0 then
           .exciter v.state v.downToggle v.errors v.latch (seconds v.silence) p.carrier p.powerLow p.reqCarrier p.channel out
         else .post a.val { v with
             silence := none, left := { v.left with emptySince := none }, right := { v.right with emptySince := none } }
           (emptied v.left) (emptied v.right) (seconds v.silence) out)
  ∧ (∀ (s : State) (a : Admission), admissionReadout s a
       = ⟨a.id, a.field, a.cls, a.occupants, (s.clock - a.arrived) / 1000, (a.timer - s.clock + 999) / 1000⟩)
  ∧ (∀ (s : State) (o : Order), windowReadout s o
       = ⟨o.number, o.field, o.post.val, o.side, o.mode, (s.clock - o.stateEntered) / 1000, o.reminderSent⟩)
  ∧ (∀ (s : State) (collection param : Nat),
       collection = 0 ∨ 8 < collection
         ∨ ((collection = 1 ∨ collection = 2 ∨ collection = 3 ∨ collection = 4 ∨ collection = 6) ∧ (param = 0 ∨ 4 < param))
         ∨ ((collection = 5 ∨ collection = 7 ∨ collection = 8) ∧ param ≠ 0) →
       entriesOf s collection param = none)
  ∧ (∀ (s : State) (r : Req) (collection param start count : Nat), InTurn 0x05#8 r.tag s → r.form = .fits →
       ((entriesOf s collection param = none ∨ 65534 < start ∨ count = 0 ∨ 255 < count) →
         Refuses (.listRead r collection param start count) 0x05#8 r.tag .badValue s)
       ∧ (∀ entries, entriesOf s collection param = some entries → start ≤ 65534 → 1 ≤ count → count ≤ 255 →
         ∃ t k, exec (.listRead r collection param start count) s = .next t ∧ k ≤ count ∧ (start < entries.length → 1 ≤ k)
           ∧ k ≤ entries.length - start
           ∧ (∀ j, 1 < j → j ≤ k → runSize collection param start j entries ≤ 512)
           ∧ (k < count → k < entries.length - start → 512 < runSize collection param start (k + 1) entries)
           ∧ Replied 0x05#8 r.tag .ok
               (.list collection param k (if entries.length ≤ start + k then 0xFFFF else start + k) ((entries.drop start).take k)) s t
           ∧ OnlyChanges [.requests, .transmitter] s t))

/-! ### The checks of requests -/

/-- A request whose count or text length does not match its body is answered BAD_LENGTH; one that matches and names a field,
screen or lane outside 1-4 is answered BAD_VALUE (R196 and the rules of the requests). The ranges of the values that requests
carry (R3, R5, R45, R65, R79, R99, R115, R122, R123, R137, R160, R164, R167). Operands are typed, the model's choice (log 1). -/
def Obligations.RequestsAreChecked : Prop :=
  (∀ (s : State) (c : Instr) (kind : Byte) (r : Req), request? c = some (kind, r) → InTurn kind r.tag s → r.form = .fits →
     (¬ countFits c → Refuses c kind r.tag .badLength s)
     ∧ (countFits c → ∀ k, place? c = some k → Nr.ofNat? k = none → Refuses c kind r.tag .badValue s))
  ∧ ((∀ v : ScreenSettings, ScreenSettings.valid v = true ↔
         (v.frameRate = 24 ∨ v.frameRate = 25 ∨ v.frameRate = 30 ∨ v.frameRate = 48) ∧ (100 ≤ v.stallTime ∧ v.stallTime ≤ 2000)
         ∧ v.holdThreshold ≤ 64 ∧ (10 ≤ v.maxHold ∧ v.maxHold ≤ 900) ∧ v.holdChime ≤ 8 ∧ v.orderLead ≤ 1800)
     ∧ (∀ c : CueSpec, CueSpec.valid c = true ↔ (1 ≤ c.number ∧ c.number ≤ 255) ∧ c.position ≤ 16777215
         ∧ match c.action with
           | .output .hold _ => False
           | .output (.cueDriven _) (.pulse delay width) => delay ≤ 10000 ∧ 1 ≤ width ∧ width ≤ 10000
           | .output (.cueDriven _) (.blink half) => 50 ≤ half ∧ half ≤ 5000
           | .mark code => code ≤ 255
           | .intermissionBegin chime => chime ≤ 8
           | .announce chime priority => (1 ≤ chime ∧ chime ≤ 8) ∧ 1 ≤ priority ∧ priority ≤ 3
           | _ => True)
     ∧ (∀ v : AudioSettings, AudioSettings.valid v = true ↔
         (1 ≤ v.route ∧ v.route ≤ 4) ∧ v.trim ≤ 4096 ∧ v.delay ≤ 400 ∧ v.duckDepth ≤ 4096 ∧ (1 ≤ v.rampDown ∧ v.rampDown ≤ 250)
         ∧ (1 ≤ v.rampUp ∧ v.rampUp ≤ 250) ∧ v.annGain ≤ 4096)
     ∧ (∀ kind pattern targets priority duration, announceValid kind pattern targets priority duration = true ↔
         ((if kind = .chime then 1 ≤ pattern else True) ∧ pattern ≤ 8) ∧ (targets ≠ [] ∧ ∀ k ∈ targets, 1 ≤ k ∧ k ≤ 4)
         ∧ (1 ≤ priority ∧ priority ≤ 3) ∧ duration ≤ 120)
     ∧ (∀ pattern count notes level, chimeValid pattern count notes level = true ↔
         (1 ≤ pattern ∧ pattern ≤ 8) ∧ (1 ≤ count ∧ count ≤ 4)
         ∧ (∀ m ∈ notes, m.index ≤ 15 ∧ 20 ≤ m.duration ∧ m.duration ≤ 2000) ∧ level ≤ 4096)
     ∧ (∀ v : LineSettings, LineSettings.valid v = true ↔ (50 ≤ v.velocity ∧ v.velocity ≤ 99) ∧ 1 ≤ v.threshold ∧ v.threshold ≤ 127)
     ∧ (∀ p, positionValid p = true ↔ p ≤ 30000 ∨ p = 0xFFFF)
     ∧ (∀ m, BoothMessage.valid m = true ↔ match m with
         | .display side seconds length _ => side ≠ .both ∧ seconds ≤ 255 ∧ length ≤ 32
         | .chime _ pattern => 1 ≤ pattern ∧ pattern ≤ 8
         | .other => False)
     ∧ (∀ v : LaneSettings, LaneSettings.valid v = true ↔
         (2 ≤ v.filterCount ∧ v.filterCount ≤ 50) ∧ (10 ≤ v.blockedTime ∧ v.blockedTime ≤ 600) ∧ 10 ≤ v.expiry ∧ v.expiry ≤ 600)
     ∧ (∀ v : FieldSettings, FieldSettings.valid v = true ↔
         v.limit ≤ 192 ∧ (60 ≤ v.seatTimeout ∧ v.seatTimeout ≤ 3600) ∧ 1 ≤ v.reopenMargin ∧ v.reopenMargin ≤ 32)
     ∧ (∀ i : MenuItem, MenuItem.valid i = true ↔
         (1 ≤ i.code ∧ i.code ≤ 250) ∧ i.name.length ≤ 16 ∧ i.price ≤ 9999 ∧ (1 ≤ i.station ∧ i.station ≤ 4) ∧ i.prep ≤ 1800)
     ∧ (∀ staff limit, stationsValid staff limit = true ↔
         (∀ n, 1 ≤ staff.get n ∧ staff.get n ≤ 8) ∧ 60 ≤ limit ∧ limit ≤ 3600))

/-! ### Screen timelines (chapter 1) -/

/-- SCREEN_SET replaces every setting, or none where a value is outside its range. A hold whose inbound count is at or below the new
threshold ends: HOLD_ENDED tells SEATED, the overrun and the position, and the show runs on with a fire pass under the new settings
(R3, R11, R12, R25). The release test comes before that (log 39). Moments are counts of the model's own clock, the model's choice
(log 3). -/
def Obligations.ScreenSetReplacesTheSettings : Prop :=
  ∀ (s : State) (r : Req) (n : Nr) (v : ScreenSettings), InTurn 0x10#8 r.tag s → r.form = .fits →
    let x := s.screens.get n
    (ScreenSettings.valid v = false → Refuses (.screenSet r n.toNat v) 0x10#8 r.tag .badValue s)
    ∧ (ScreenSettings.valid v = true → ∃ t, exec (.screenSet r n.toNat v) s = .next t ∧ Replied 0x10#8 r.tag .ok .empty s t
      ∧ (t.screens.get n).settings = v
      ∧ (x.state ≠ .holding ∨ v.holdThreshold < (s.fields.get n).inbound.length →
        t.screens.get n = { x with settings := v } ∧ t.outputs.get n = s.outputs.get n)
      ∧ (x.state = .holding → (s.fields.get n).inbound.length ≤ v.holdThreshold → nothingDue x →
        t.screens.get n = { x with settings := v, state := .running, maxHold := none, stall := some (s.clock + v.stallTime) }
        ∧ t.outputs.get n = { s.outputs.get n with hold := .released } ∧ State.level t (.showHolding n) = false)
      ∧ (x.state = .holding → (s.fields.get n).inbound.length ≤ v.holdThreshold → (x.cues.map (·.number)).Nodup →
        FirePass s n v (s.fields.get n).inbound.length x.position s.clock [.holdEnded n .seated x.overrun x.position] t))

/-- CUE_LOAD and CUE_INSERT: the order of their checks; each cue takes its place in position order, after the cues at its own
position; the show becomes LOADED at a load and, from EMPTY, at an insert (R4, R5, R6, R7). CUE_DELETE removes an unfired cue of
the list, and the rest close up; CUE_CLEAR removes every cue outside the running states. A LOADED show whose list becomes empty
is EMPTY (R8, R9). -/
def Obligations.CueListsAreEdited : Prop :=
  (∀ (s : State) (r : Req) (n : Nr), r.form = .fits →
     let x := s.screens.get n
     let running := x.state = .armed ∨ x.state = .running ∨ x.state = .holding
     let used := x.cues.map (·.number)
     (∀ cues : List CueSpec, InTurn 0x11#8 r.tag s →
       let c := Instr.cueLoad r n.toNat cues.length cues
       let fits := 1 ≤ cues.length ∧ cues.length ≤ 16 ∧ (∀ d ∈ cues, CueSpec.valid d = true)
         ∧ (used ++ cues.map (·.number)).Nodup
       (used.Nodup → ¬ fits → Refuses c 0x11#8 r.tag .badValue s)
       ∧ (fits → running → Refuses c 0x11#8 r.tag .wrongState s)
       ∧ (fits → ¬ running → 64 < x.cues.length + cues.length → Refuses c 0x11#8 r.tag .full s)
       ∧ (fits → ¬ running → x.cues.length + cues.length ≤ 64 → x.cues.Pairwise (fun c d => c.position ≤ d.position) →
         ∃ t, exec c s = .next t ∧ Replied 0x11#8 r.tag .ok .empty s t
           ∧ t.screens.get n = { x with cues := cues.foldl placed x.cues, state := .loaded }
           ∧ (noneDeferred n s → Makes .show
               (if x.state = .loaded then [] else [.showState n x.state .loaded x.position .request]) s t)))
     ∧ (∀ d : CueSpec, InTurn 0x12#8 r.tag s →
       let c := Instr.cueInsert r n.toNat d
       let fits := CueSpec.valid d = true ∧ d.number ∉ used
       (¬ fits → Refuses c 0x12#8 r.tag .badValue s)
       ∧ (fits → 64 ≤ x.cues.length → Refuses c 0x12#8 r.tag .full s)
       ∧ (fits → x.cues.length < 64 → running → d.position ≤ x.position → Refuses c 0x12#8 r.tag .tooLate s)
       ∧ (fits → x.cues.length < 64 → (running → x.position < d.position) →
         x.cues.Pairwise (fun c d => c.position ≤ d.position) →
         ∃ t, exec c s = .next t ∧ Replied 0x12#8 r.tag .ok .empty s t
           ∧ t.screens.get n = { x with cues := placed x.cues d, state := if x.state = .empty then .loaded else x.state }
           ∧ (noneDeferred n s → Makes .show
               (if x.state = .empty then [.showState n .empty .loaded x.position .request] else []) s t))))
  ∧ (∀ (s : State) (r : Req) (n : Nr), r.form = .fits →
       let x := s.screens.get n
       (∀ number, InTurn 0x13#8 r.tag s →
         let c := Instr.cueDelete r n.toNat number
         (¬ (1 ≤ number ∧ number ≤ 255) → Refuses c 0x13#8 r.tag .badValue s)
         ∧ (1 ≤ number → number ≤ 255 → (∀ d ∈ x.cues, d.number ≠ number) → Refuses c 0x13#8 r.tag .notFound s)
         ∧ (1 ≤ number → number ≤ 255 → (x.cues.map (·.number)).Nodup → ∀ d ∈ x.cues, d.number = number →
           (d.fired = true → Refuses c 0x13#8 r.tag .wrongState s)
           ∧ (d.fired = false → ∃ t, exec c s = .next t ∧ Replied 0x13#8 r.tag .ok .empty s t
             ∧ (let left := x.cues.filter fun e => decide (e.number ≠ number)
                t.screens.get n = { x with cues := left, state := if left = [] ∧ x.state = .loaded then .empty else x.state }
                ∧ (noneDeferred n s → Makes .show
                   (if left = [] ∧ x.state = .loaded then [.showState n .loaded .empty x.position .request] else []) s t)))))
       ∧ (InTurn 0x14#8 r.tag s →
         let c := Instr.cueClear r n.toNat
         (x.state = .armed ∨ x.state = .running ∨ x.state = .holding → Refuses c 0x14#8 r.tag .wrongState s)
         ∧ (x.state = .empty ∨ x.state = .loaded ∨ x.state = .stopped ∨ x.state = .ended →
           ∃ t, exec c s = .next t ∧ Replied 0x14#8 r.tag .ok .empty s t ∧ t.screens.get n = { x with cues := [], state := .empty }
             ∧ (noneDeferred n s → Makes .show
                 (if x.state = .empty then [] else [.showState n x.state .empty x.position .request]) s t))))

/-- SHOW_ARM clears the fired marks, the position and the overrun count, and releases and unforces every cue-driven line (R10, R38).
SHOW_GO starts an ARMED show and its stall timer; where no cue is due at its position, it runs on (R11, R12, R22). SHOW_STOP in a
running state: a hold ends, the stall timer is cancelled and PROJECTION_STALLED falls; on the unforced lines pulses and blinks end
at the level held, and SHUTTER is released; the reports of the show are HOLD_ENDED of a hold, with STOPPED, the overrun and the
position, and then SHOW_STATE (R13, R15, R25, R37). Moments are counts of the model's own clock, the model's choice (log 3). -/
def Obligations.ShowsAreArmedRunAndStopped : Prop :=
  (∀ (s : State) (r : Req) (n : Nr), InTurn 0x15#8 r.tag s → r.form = .fits →
     let x := s.screens.get n
     let ready := x.state = .loaded ∨ ((x.state = .stopped ∨ x.state = .ended) ∧ x.cues ≠ [])
     (¬ ready → Refuses (.showArm r n.toNat) 0x15#8 r.tag .wrongState s)
     ∧ (ready → ∃ t, exec (.showArm r n.toNat) s = .next t ∧ Replied 0x15#8 r.tag .ok .empty s t
       ∧ t.screens.get n = { x with
           state := .armed, position := 0, overrun := 0, cues := x.cues.map fun c => { c with fired := false } }
       ∧ (∀ line, (t.outputs.get n).lines.get line
           = ⟨((s.outputs.get n).lines.get line).sense, .released, .steady, none, none, none, none⟩)
       ∧ (t.outputs.get n).hold = (s.outputs.get n).hold
       ∧ (noneDeferred n s → Makes .show [.showState n x.state .armed 0 .request] s t)))
  ∧ (∀ (s : State) (r : Req) (n : Nr), InTurn 0x16#8 r.tag s → r.form = .fits →
       let x := s.screens.get n
       (x.state ≠ .armed → Refuses (.showGo r n.toNat) 0x16#8 r.tag .wrongState s)
       ∧ (x.state = .armed → ∃ t, exec (.showGo r n.toNat) s = .next t ∧ Replied 0x16#8 r.tag .ok .empty s t
         ∧ (nothingDue x → t.screens.get n = { x with state := .running, stall := some (s.clock + x.settings.stallTime) }
           ∧ t.outputs.get n = s.outputs.get n
           ∧ (noneDeferred n s → Makes .show [.showState n .armed .running x.position .request] s t))))
  ∧ (∀ (s : State) (r : Req) (n : Nr), InTurn 0x17#8 r.tag s → r.form = .fits →
       let x := s.screens.get n
       let running := x.state = .armed ∨ x.state = .running ∨ x.state = .holding
       (¬ running → Refuses (.showStop r n.toNat) 0x17#8 r.tag .wrongState s)
       ∧ (running → ∃ t, exec (.showStop r n.toNat) s = .next t ∧ Replied 0x17#8 r.tag .ok .empty s t
         ∧ t.screens.get n = { x with
             state := .stopped, stall := none, maxHold := if x.state = .holding then none else x.maxHold }
         ∧ State.level t (.projectionStalled n) = false
         ∧ (x.state = .holding → (t.outputs.get n).hold = .released ∧ State.level t (.showHolding n) = false)
         ∧ (x.state ≠ .holding → (t.outputs.get n).hold = (s.outputs.get n).hold)
         ∧ (∀ line, let l := (s.outputs.get n).lines.get line
             (t.outputs.get n).lines.get line = if l.force.isSome = true then l
               else ⟨l.sense, if line = .shutter then .released else l.level, .steady, none, none, none, none⟩)
         ∧ (Heard .show s t → TellsShow ((if x.state = .holding then [.holdEnded n .stopped x.overrun x.position] else [])
             ++ [.showState n x.state .stopped x.position .request]) s t)))

/-- HOLD_RELEASE and the maximum-hold timer's expiry end a hold: the HOLD line is released and SHOW_HOLDING falls, HOLD_ENDED
tells the reason, the overrun and the position, and the show runs on with its stall timer started (R25). Moments are counts of
the model's own clock, the model's choice (log 3). -/
def Obligations.HoldsEnd : Prop :=
  ∀ (s : State) (n : Nr),
    let x := s.screens.get n
    let ends (clock : Nat) (reason : HoldReason) (t : State) : Prop :=
      nothingDue x → t.screens.get n = { x with
          state := .running, maxHold := none, stall := some (clock + x.settings.stallTime) }
        ∧ t.outputs.get n = { s.outputs.get n with hold := .released } ∧ State.level t (.showHolding n) = false
        ∧ (Hears .show 2 s → noneDeferred n s → Tells (.holdEnded n reason x.overrun x.position) s t)
    (∀ r : Req, InTurn 0x18#8 r.tag s → r.form = .fits →
      (x.state ≠ .holding → Refuses (.holdRelease r n.toNat) 0x18#8 r.tag .wrongState s)
      ∧ (x.state = .holding → ∃ t, exec (.holdRelease r n.toNat) s = .next t ∧ Replied 0x18#8 r.tag .ok .empty s t
        ∧ ends s.clock .operator t))
    ∧ (x.state = .holding → ∀ d, x.maxHold = some d → ∃ t, exec (.maximumHoldExpiry n) s = .next t ∧ t.clock = max s.clock d
        ∧ ends (max s.clock d) .timeout t)

/-- SHOW_STATUS is answered in every show state with the screen's whole present state and changes nothing (R16, R26). Moments are
counts of the model's own clock, the model's choice (log 3). -/
def Obligations.ShowStatusTellsTheScreen : Prop :=
  ∀ (s : State) (r : Req) (n : Nr), InTurn 0x19#8 r.tag s → r.form = .fits →
    let x := s.screens.get n
    ∃ t next release holds, exec (.showStatus r n.toNat) s = .next t
      ∧ Replied 0x19#8 r.tag .ok (.show ⟨x.state, x.position, x.cues.length, (x.cues.filter (·.fired)).length, next, release, holds,
          x.overrun, match x.maxHold with
            | none => 0
            | some d => (d - s.clock + 999) / 1000,
          State.level s (.showHolding n), State.level s (.projectionStalled n), x.settings⟩) s t
      ∧ (∀ before c after chime, x.cues = before ++ c :: after → c.fired = false → c.action = .intermissionBegin chime →
          (∀ d ∈ before, d.fired = true ∨ ∀ k, d.action ≠ .intermissionBegin k) →
          next = some (c.number, c.position) ∧ release = some (c.position - x.settings.orderLead * x.settings.frameRate))
      ∧ ((∀ d ∈ x.cues, d.fired = true ∨ ∀ k, d.action ≠ .intermissionBegin k) → next = none ∧ release = none)
      ∧ (holds = true ↔ (x.state = .empty ∨ x.state = .loaded ∨ x.state = .stopped ∨ x.state = .ended) ∨ release = none
          ∨ ∃ p, release = some p ∧ p ≤ x.position)
      ∧ OnlyChanges [.requests, .transmitter] s t

/-- One sample of FRAMEn: the frame filter's table, and what the timeline does with a counted frame in each show state: in
RUNNING the position advances, the stall timer restarts and PROJECTION_STALLED falls, and the last position ends the show; in
HOLDING the overrun count advances; in the other states only the filter changes (R1, R2, R12, R14, R22, R24). The stall timer's
expiry in RUNNING raises PROJECTION_STALLED and leaves the show and its lines as they are (R22). Sampled inputs are operands, the
model's choice (log 7). Moments are counts of the model's own clock, the model's choice (log 3). -/
def Obligations.FramesAreCountedAndStallsRaised : Prop :=
  (∀ (s : State) (n : Nr) (high : Bool),
     let x := s.screens.get n
     let filtered (f : FrameFilter) : Prop := ∃ t, exec (.frameCounted n [high]) s = .next t
       ∧ t.screens.get n = { x with filter := f } ∧ OnlyChanges [.screen n, .transmitter] s t
     (x.filter.phase = .waitLow → high = true → filtered ⟨.waitLow, 0⟩)
     ∧ (x.filter = ⟨.waitLow, 0⟩ → high = false → filtered ⟨.waitLow, 1⟩)
     ∧ (x.filter = ⟨.waitLow, 1⟩ → high = false → filtered ⟨.waitHigh, 0⟩)
     ∧ (x.filter.phase = .waitHigh → high = false → filtered ⟨.waitHigh, 0⟩)
     ∧ (x.filter = ⟨.waitHigh, 0⟩ → high = true → filtered ⟨.waitHigh, 1⟩)
     ∧ (x.filter = ⟨.waitHigh, 1⟩ → high = true →
       (x.state = .running → noCueDue (x.position + 1) x.cues → ∃ t, exec (.frameCounted n [high]) s = .next t
         ∧ t.screens.get n = { x with
             filter := ⟨.waitLow, 0⟩, position := x.position + 1
             state := if x.position + 1 = 16777215 then .ended else .running
             stall := if x.position + 1 = 16777215 then none else some (s.clock + x.settings.stallTime) }
         ∧ State.level t (.projectionStalled n) = false ∧ t.outputs.get n = s.outputs.get n
         ∧ (State.level s (.projectionStalled n) = false → noneDeferred n s → Makes .show
             (if x.position + 1 = 16777215 then [.showState n .running .ended 16777215 .positionLimit] else []) s t))
       ∧ (x.state = .holding → ∃ t, exec (.frameCounted n [high]) s = .next t
         ∧ t.screens.get n = { x with filter := ⟨.waitLow, 0⟩, overrun := x.overrun + 1 } ∧ OnlyChanges [.screen n, .transmitter] s t)
       ∧ (x.state ≠ .running → x.state ≠ .holding → filtered ⟨.waitLow, 0⟩)))
  ∧ (∀ (s : State) (n : Nr) (d : Nat),
       let x := s.screens.get n
       x.state = .running → x.stall = some d →
       ∃ t, exec (.stallTimerExpiry n) s = .next t ∧ t.screens.get n = { x with stall := none } ∧ t.clock = max s.clock d
         ∧ State.level t (.projectionStalled n) = true
         ∧ OnlyChanges (.clock :: .screen n :: Part.cond (.projectionStalled n)) s t)

/-- A frame in RUNNING at which one cue is due, those before it fired and those after it later: the cue's fired mark is set and its
action done; CUE_FIRED tells the outcome of a mark or a passed hold point. A hold begins at a hold point that is enabled, where more
cars are inbound than the threshold; END ends the show; ORDER_OPEN and ORDER_CUTOFF set ordering of the field (R12, R14, R17, R19,
R23, R168). An ANNOUNCE cue, an intermission's chime and a hold's chime are queued as a CHIME announcement of the field for 30 s,
and dropped where 16 records wait; no other cue touches the announcements (R20, R21, R23, R66). An OUTPUT cue that fires alone on a
frame acts on its line by the table of operations, and CUE_FIRED tells the outcome: a forced line is left, a pulse that finds a
pulse is busy, and the rest is done (R17, R18, R31, R32, R34). The fire pass of a frame, of SHOW_GO and of a hold's end by
HOLD_RELEASE or its timer fires every due cue, in list order, up to the first that ends the show or begins a hold; after a pass that
leaves the show RUNNING the last position ends it. The reports of the show: CUE_FIRED of each cue in list order, and after its own
HOLD_BEGAN, or SHOW_STATE of END (R11, R12, R14, R17, R23, R25). That CUE_FIRED carries the action's parameters is the model's
choice (log 42). Moments are counts of the model's own clock, the model's choice (log 3). -/
def Obligations.DueCuesFire : Prop :=
  (∀ (s : State) (n : Nr) (before after : List Cue) (c : Cue),
     let x := s.screens.get n
     let p := x.position + 1
     let inbound := (s.fields.get n).inbound.length
     let holds := c.action = .holdPoint ∧ x.settings.holdEnable = true ∧ x.settings.holdThreshold < inbound
     let asked : Option (Nat × Nat × Origin) := match c.action with
       | .announce chime priority => some (chime, priority, .cue)
       | .intermissionBegin chime => if chime = 0 then none else some (chime, 2, .cue)
       | .holdPoint => if holds ∧ x.settings.holdChime ≠ 0 then some (x.settings.holdChime, 2, .hold) else none
       | _ => none
     let u := s.announce
     x.state = .running → x.filter = ⟨.waitHigh, 1⟩ → p < 16777215 → x.cues = before ++ c :: after →
     (x.cues.map (·.number)).Nodup → (∀ d ∈ before, d.fired = true) → (∀ d ∈ after, p < d.position) → c.fired = false →
     c.position ≤ p →
     ∃ t, exec (.frameCounted n [true]) s = .next t
       ∧ (t.screens.get n).cues = before ++ { c with fired := true } :: after ∧ (t.screens.get n).position = p
       ∧ (t.screens.get n).state = (if c.action = .finish then .ended else if holds then .holding else .running)
       ∧ (t.screens.get n).stall = (if c.action = .finish ∨ holds then none else some (s.clock + x.settings.stallTime))
       ∧ State.level t (.projectionStalled n) = false
       ∧ (¬ holds → (t.screens.get n).maxHold = x.maxHold ∧ (t.outputs.get n).hold = (s.outputs.get n).hold
         ∧ State.level t (.showHolding n) = State.level s (.showHolding n))
       ∧ (holds → (t.screens.get n).maxHold = some (s.clock + x.settings.maxHold * 1000) ∧ (t.screens.get n).overrun = 0
         ∧ (t.outputs.get n).hold = .asserted ∧ State.level t (.showHolding n) = true)
       ∧ (c.action = .orderOpen → t.orders.ordering.get n = true ∧ State.level t (.orderingOpen n) = true)
       ∧ (c.action = .orderCutoff → t.orders.ordering.get n = false ∧ State.level t (.orderingOpen n) = false)
       ∧ (∀ chime, c.action = .intermissionBegin chime → noneDeferred n t)
       ∧ (State.level s (.projectionStalled n) = false → noneDeferred n s →
         (∀ code, c.action = .mark code → Makes .show [.cueFired n c.number c.position c.action none] s t)
         ∧ (c.action = .holdPoint → ¬ holds → Makes .show [.cueFired n c.number c.position c.action (some .passed)] s t))
       ∧ (asked = none → t.announce = u)
       ∧ ∀ pattern priority origin, asked = some (pattern, priority, origin) →
         let tells (r : Report) : Prop :=
           State.level s (.projectionStalled n) = false → noneDeferred n s → Hears .announce 4 s → Tells r s t
         (16 ≤ u.queue.length → t.announce = u ∧ tells (.announceDropped origin n pattern priority))
         ∧ (u.queue = [] → 1 ≤ u.nextId → u.nextId ≤ 255 → u.active.length < 255 →
           ∀ id, IsFirstFree 255 (u.active.map (·.id)) u.nextId id →
           let waiting : Ann :=
             ⟨id, .chime, pattern, .tabulate fun k => decide (k = n), priority, 30, origin, .queued, .all false, none⟩
           let granted : Ann := { waiting with phase := .ducking, awaited := waiting.targets, timer := some (s.clock + 30000) }
           let tellsOf (a : Ann) (phase : AnnPhase) : Prop :=
             tells (.announceState a.id a.kind a.pattern a.targets a.priority a.origin (.phase phase))
           ((∀ b ∈ u.active, b.targets.get n = false) → t.announce.queue = [] ∧ t.announce.active = u.active ++ [granted]
             ∧ (t.mixers.get n).duck = .ducking ∧ tellsOf waiting .queued ∧ tellsOf granted .ducking)
           ∧ ((∃ b ∈ u.active, b.targets.get n = true ∧ (priority ≠ 1 ∨ b.priority = 1)) →
             t.announce.queue = [waiting] ∧ t.announce.active = u.active ∧ tellsOf waiting .queued)))
  ∧ (∀ (s : State) (n : Nr) (before after : List Cue) (c : Cue) (line : BoothLine) (op : OutputOp),
       let x := s.screens.get n
       let p := x.position + 1
       let l := (s.outputs.get n).lines.get line
       let after_ : LineRec × CueOutcome :=
         if l.force.isSome = true then (l, .suppressedForced)
         else match op with
           | .assert => (⟨l.sense, .asserted, .steady, l.force, none, none, none⟩, .done)
           | .release => (⟨l.sense, .released, .steady, l.force, none, none, none⟩, .done)
           | .pulse delay width =>
             if l.op = .pulseWait ∨ l.op = .pulseOn then (l, .pulseBusy)
             else if delay = 0 then (⟨l.sense, .asserted, .pulseOn, l.force, some (s.clock + width), some width, none⟩, .done)
             else (⟨l.sense, l.level, .pulseWait, l.force, some (s.clock + delay), some width, none⟩, .done)
           | .blink half => (⟨l.sense, .asserted, .blink, l.force, some (s.clock + half), none, some half⟩, .done)
       x.state = .running → x.filter = ⟨.waitHigh, 1⟩ → p < 16777215 → x.cues = before ++ c :: after →
       (∀ d ∈ before, d.fired = true) → (∀ d ∈ after, p < d.position) → c.fired = false → c.position ≤ p →
       c.action = .output (.cueDriven line) op →
       ∃ t, exec (.frameCounted n [true]) s = .next t
         ∧ t.outputs.get n = { s.outputs.get n with lines := (s.outputs.get n).lines.set line after_.1 }
         ∧ (t.screens.get n).state = .running
         ∧ (State.level s (.projectionStalled n) = false → noneDeferred n s →
           Makes .show [.cueFired n c.number c.position c.action (some after_.2)] s t))
  ∧ (∀ (s : State) (n : Nr),
       let x := s.screens.get n
       let passes (p clock : Nat) (lead : List Report) (t : State) : Prop :=
         FirePass s n x.settings (s.fields.get n).inbound.length p clock lead t
       (x.cues.map (·.number)).Nodup →
       (x.state = .running → x.filter = ⟨.waitHigh, 1⟩ → x.position < 16777215 →
         ∃ t, exec (.frameCounted n [true]) s = .next t ∧ passes (x.position + 1) s.clock [] t)
       ∧ (∀ r : Req, InTurn 0x16#8 r.tag s → r.form = .fits → x.state = .armed → ∃ t, exec (.showGo r n.toNat) s = .next t
         ∧ passes x.position s.clock [.showState n .armed .running x.position .request] t)
       ∧ (∀ r : Req, InTurn 0x18#8 r.tag s → r.form = .fits → x.state = .holding → ∃ t, exec (.holdRelease r n.toNat) s = .next t
         ∧ passes x.position s.clock [.holdEnded n .operator x.overrun x.position] t)
       ∧ (x.state = .holding → ∀ d, x.maxHold = some d → ∃ t, exec (.maximumHoldExpiry n) s = .next t
         ∧ passes x.position (max s.clock d) [.holdEnded n .timeout x.overrun x.position] t))

/-! ### Booth output lines (chapter 2) -/

/-- OUTPUT_SET replaces the six senses, OUTPUT_FORCE fixes a line at a level, OUTPUT_UNFORCE releases a forced line; the reply
carries the screen's line state. The HOLD line is refused, and an unforced line cannot be unforced. The pins follow the levels
through the senses (R29, R30, R35, R36). The expiries of a line timer: the delay of a pulse asserts the line and starts its
width, the width releases it, and each half-period of a blink turns the level over and starts again (R33, R34). That a line keeps
its pulse width through PULSE_ON is the model's inference (log 34). Moments are counts of the model's own clock, the model's choice
(log 3). -/
def Obligations.BoothLinesFollowRequestsAndTimers : Prop :=
  (∀ (s : State) (r : Req) (n : Nr), r.form = .fits →
     let u := s.outputs.get n
     let told (t : State) : ReplyBody := .outputs ((t.outputs.get n).lines.map fun l => ⟨l.sense, l.level, l.op, l.force,
       match l.timer with
       | none => 0
       | some d => d - t.clock⟩) (t.outputs.get n).hold
     (∀ senses : Six Sense, InTurn 0x20#8 r.tag s → ∃ t, exec (.outputSet r n.toNat senses) s = .next t
       ∧ Replied 0x20#8 r.tag .ok (told t) s t
       ∧ (∀ line, (t.outputs.get n).lines.get line = { u.lines.get line with sense := senses.get line })
       ∧ (∀ line, boothPin t n line = match senses.get line, (u.lines.get line).level with
           | .high, .asserted => true
           | .high, .released => false
           | .low, .asserted => false
           | .low, .released => true)
       ∧ (t.outputs.get n).hold = u.hold ∧ OnlyChanges [.requests, .transmitter, .output n] s t)
     ∧ (∀ line level, InTurn 0x21#8 r.tag s → ∃ t, exec (.outputForce r n.toNat (.cueDriven line) level) s = .next t
       ∧ Replied 0x21#8 r.tag .ok (told t) s t
       ∧ t.outputs.get n = { u with
           lines := u.lines.set line ⟨(u.lines.get line).sense, level, .steady, some level, none, none, none⟩ }
       ∧ OnlyChanges [.requests, .transmitter, .output n] s t)
     ∧ (∀ line, InTurn 0x22#8 r.tag s →
       ((u.lines.get line).force = none → Refuses (.outputUnforce r n.toNat (.cueDriven line)) 0x22#8 r.tag .wrongState s)
       ∧ ((u.lines.get line).force ≠ none → ∃ t, exec (.outputUnforce r n.toNat (.cueDriven line)) s = .next t
         ∧ Replied 0x22#8 r.tag .ok (told t) s t
         ∧ t.outputs.get n = { u with
             lines := u.lines.set line ⟨(u.lines.get line).sense, .released, .steady, none, none, none, none⟩ }
         ∧ OnlyChanges [.requests, .transmitter, .output n] s t))
     ∧ (∀ level, InTurn 0x21#8 r.tag s → Refuses (.outputForce r n.toNat .hold level) 0x21#8 r.tag .badValue s)
     ∧ (InTurn 0x22#8 r.tag s → Refuses (.outputUnforce r n.toNat .hold) 0x22#8 r.tag .badValue s))
  ∧ (∀ (s : State) (n : Nr) (line : BoothLine) (d : Nat),
       let l := (s.outputs.get n).lines.get line
       let becomes (c : Instr) (after : LineRec) : Prop := ∃ t, exec c s = .next t ∧ t.clock = max s.clock d
         ∧ t.outputs.get n = { s.outputs.get n with lines := (s.outputs.get n).lines.set line after }
         ∧ OnlyChanges [.clock, .output n, .transmitter] s t
       l.timer = some d →
       (l.op = .pulseWait → ∀ width, l.width = some width → becomes (.pulseDelayExpiry n line)
         { l with level := .asserted, op := .pulseOn, timer := some (max s.clock d + width) })
       ∧ (l.op = .pulseOn → becomes (.pulseWidthExpiry n line) ⟨l.sense, .released, .steady, l.force, none, none, none⟩)
       ∧ (l.op = .blink → ∀ half, l.halfPeriod = some half → becomes (.blinkHalfPeriodExpiry n line)
         { l with level := if l.level = .asserted then .released else .asserted, timer := some (max s.clock d + half) }))

/-! ### Audio (chapter 3) -/

/-- An arrival on a program input: the input is PRESENT with its silence timer started; every field whose applied route it is
stores the frame in its open slot and shows the presence; the other fields keep theirs. An arrival on ANN fills the holding slot,
is taken for fresh, and makes ANN present, which cancels the source-loss timer (R41, R42, R47, R74). 480 sample instants without
an arrival make an input ABSENT: PROGRAM_PRESENT falls for the fields whose applied route it is; ANNOUNCE_SOURCE_PRESENT falls
for ANN, and a record in LIVE starts the source-loss timer (R42, R74). That the expiry is a command of its own is log 4's, that it
does nothing while sample instants are left log 5's, the sparse slots log 14's. Moments are counts of the model's own clock, the
model's choice (log 3). -/
def Obligations.InputsComeAndGo : Prop :=
  ((∀ (s : State) (k : Nr) (f : Frame), ∃ t, exec (.progArrival k f) s = .next t
     ∧ t.intake = { s.intake with
         progPresent := s.intake.progPresent.set k true, progSilence := s.intake.progSilence.set k (some 480) }
     ∧ (∀ n, (s.mixers.get n).appliedRoute = k → State.level t (.programPresent n) = true
       ∧ (t.delays.get n).writeIndex = (s.delays.get n).writeIndex
       ∧ ((s.delays.get n).slots.Pairwise (fun a b => a.1 < b.1) →
         ∀ j, findSlot j (t.delays.get n).slots
           = if j = (s.delays.get n).writeIndex then some f else findSlot j (s.delays.get n).slots))
     ∧ (∀ n, (s.mixers.get n).appliedRoute ≠ k → t.delays.get n = s.delays.get n
       ∧ State.level t (.programPresent n) = State.level s (.programPresent n))
     ∧ OnlyChanges (.transmitter :: touches (.progArrival k f)) s t)
   ∧ ∀ (s : State) (v : Sample), ∃ t, exec (.annArrival v) s = .next t
     ∧ t.intake = { s.intake with slot := v, fresh := true, annPresent := true, annSilence := some 480 }
     ∧ t.announce = { s.announce with sourceLoss := if s.intake.annPresent = true then s.announce.sourceLoss else none }
     ∧ State.level t .announceSourcePresent = true
     ∧ OnlyChanges (.transmitter :: .intake :: .announce :: Part.cond .announceSourcePresent) s t)
  ∧ ((∀ (s : State) (k : Nr), s.intake.progSilence.get k = some 0 → ∃ t, exec (.inputSilenceExpiry (.prog k)) s = .next t
       ∧ t.intake = { s.intake with
           progPresent := s.intake.progPresent.set k false, progSilence := s.intake.progSilence.set k none }
       ∧ (∀ n, State.level t (.programPresent n)
           = if (s.mixers.get n).appliedRoute = k then false else State.level s (.programPresent n))
       ∧ OnlyChanges (.transmitter :: .intake :: Part.programs) s t)
     ∧ (∀ (s : State) (k : Nr), s.intake.progSilence.get k ≠ some 0 →
       ∃ t, exec (.inputSilenceExpiry (.prog k)) s = .next t ∧ OnlyChanges [.transmitter] s t)
     ∧ (∀ s : State, s.intake.annSilence ≠ some 0 →
       ∃ t, exec (.inputSilenceExpiry .ann) s = .next t ∧ OnlyChanges [.transmitter] s t)
     ∧ ∀ s : State, s.intake.annSilence = some 0 → ∃ t, exec (.inputSilenceExpiry .ann) s = .next t
       ∧ t.intake = { s.intake with annPresent := false, annSilence := none }
       ∧ State.level t .announceSourcePresent = false
       ∧ t.announce = { s.announce with
           sourceLoss := if ∃ a ∈ s.announce.active, a.phase = .live then some (s.clock + 2000) else s.announce.sourceLoss }
       ∧ OnlyChanges (.transmitter :: .intake :: .announce :: Part.cond .announceSourcePresent) s t)

/-- The rounding of a product over 4096, the two gain products, and the clamp: the nearest whole number, halves away from zero; and
the sum held within a sample's range (section 3.7, R58, R59, R60). -/
def Obligations.ProductsAreRoundedAndSumsClamped : Prop :=
  (∀ x : Int, 2 * (4096 * roundAway x - x).natAbs ≤ 4096
    ∧ (2 * (4096 * roundAway x - x).natAbs = 4096 → x.natAbs < (4096 * roundAway x).natAbs))
  ∧ (∀ a b : Nat, (gainProduct a b : Int) = roundAway (a * b))
  ∧ (∀ v gain, term v gain = roundAway (v * gain))
  ∧ ∀ x : Int, clampSample x = (if 32767 < x then 32767 else if x < -32768 then -32768 else x)
    ∧ (isClamped x = true ↔ clampSample x ≠ x)

/-- A sample instant, for each field: the frame `appliedD` slots behind the write index is read, silence where it is not fresh,
and then is no longer fresh; the two terms and the chime's are summed, clamped and joined to the block; CLIPPED rises at a clamp;
the write index advances to a slot that is not fresh; a sounding voice advances. The intake's slot is taken, and the silence
timers run (R42, R43, R47, R48, R58, R59, R60, R72). What the instants before it have brought to its end comes first, where no
command has told of it (log 4): a block of 96 sample frames ends and the next begins with this instant's; 480 instants without an
arrival make an input ABSENT; a note of duration × 48 instants gives way to the next, or its voice falls silent (R42, R44, R61,
R72). The sine is read as log 17 says, and the slots stand as log 14 says. -/
def Obligations.SampleInstantMixesEachField : Prop :=
  ∀ s : State,
    let ends (n : Nr) : Prop := ∃ note rest level k, s.announce.voices.get n = .sounding (note :: rest) level k ∧ note.duration * 48 ≤ k
    let lessOne (silence : Option Nat) : Option Nat := if silence = some 0 then none else silence.map (· - 1)
    ∃ t, exec .sampleInstant s = .next t
    ∧ OnlyChanges (.transmitter :: touches .sampleInstant) s t
    ∧ t.intake = { s.intake with
        fresh := false
        progPresent := .tabulate fun k => s.intake.progPresent.get k && decide (s.intake.progSilence.get k ≠ some 0)
        annPresent := s.intake.annPresent && decide (s.intake.annSilence ≠ some 0)
        progSilence := s.intake.progSilence.map lessOne, annSilence := lessOne s.intake.annSilence }
    ∧ (s.intake.annSilence = some 0 → State.level t .announceSourcePresent = false)
    ∧ (∀ n, s.intake.progSilence.get (s.mixers.get n).appliedRoute = some 0 → (s.mixers.get n).block.length < 96 →
      State.level t (.programPresent n) = false)
    ∧ (∀ n, (96 ≤ (s.mixers.get n).block.length →
        (t.mixers.get n).block.length = 1 ∧ (t.lines.get n).sequence = (s.lines.get n).sequence + 1)
      ∧ ((s.mixers.get n).block.length < 96 →
        (t.mixers.get n).block.length = (s.mixers.get n).block.length + 1 ∧ t.lines.get n = s.lines.get n))
    ∧ ((∀ n, (s.mixers.get n).block.length < 96) → ∀ n, (∀ i, i ≠ n → ¬ ends i) →
      ∀ note level k, note.duration * 48 ≤ k →
        (∀ next rest, s.announce.voices.get n = .sounding (note :: next :: rest) level k → 0 < next.duration →
          t.announce.voices.get n = .sounding (next :: rest) level 1)
        ∧ (s.announce.voices.get n = .sounding [note] level k → t.announce.voices.get n = .idle))
    ∧ ((∀ n, (s.mixers.get n).block.length < 96 ∧ ¬ ends n) → ∀ n,
      let m := s.mixers.get n
      let d := s.delays.get n
      let back := (d.writeIndex + 19296 - m.appliedD % 19296) % 19296
      let f := (findSlot back d.slots).getD ⟨0, 0⟩
      let gain := gainProduct (gainProduct m.inUse.trim m.duckGain) m.fadeGain
      let live := if m.liveNoted = true ∧ s.intake.fresh = true then roundAway (s.intake.slot.toInt * m.inUse.annGain) else 0
      let chime := match s.announce.voices.get n with
        | .sounding (note :: _) level k =>
          if note.index = 0 then 0 else roundAway (sineSample (noteFrequency note.index) k * level)
        | _ => 0
      let left := roundAway (f.left.toInt * gain) + live + chime
      let right := roundAway (f.right.toInt * gain) + live + chime
      let hit := isClamped left || isClamped right
      t.mixers.get n = { m with block := m.block ++ [⟨clampSample left, clampSample right⟩], clamped := m.clamped || hit }
        ∧ (t.delays.get n).writeIndex = (d.writeIndex + 1) % 19296
        ∧ (d.slots.Pairwise (fun a b => a.1 < b.1) → ∀ j, findSlot j (t.delays.get n).slots
            = if j = back ∨ j = (d.writeIndex + 1) % 19296 then none else findSlot j d.slots)
        ∧ State.level t (.clipped n) = (hit || State.level s (.clipped n))
        ∧ t.announce.voices.get n = match s.announce.voices.get n with
          | .sounding notes level k => .sounding notes level (k + 1)
          | v => v)

/-- AUDIO_SET replaces the settings, or nothing where a value is outside its range. With field audio OFF a delay or route that differs
from the applied ones is pending, and the fade goes out; with it ON a difference is carried by a fade-out, a return to the applied
values ends one, and a mere change of the audio setting turns the fade. AUDIO_STATUS tells the mixer and changes nothing (R45, R46,
R49, R52, R53). -/
def Obligations.AudioSettingsActOnTheFade : Prop :=
  ∀ (s : State) (r : Req) (n : Nr), r.form = .fits →
    let m := s.mixers.get n
    (∀ v : AudioSettings, InTurn 0x28#8 r.tag s →
      let differs := v.delay * 48 ≠ m.appliedD ∨ v.route ≠ m.appliedRoute.toNat
      let pending : PendingChange := ⟨v.delay * 48, decide (v.route ≠ m.appliedRoute.toNat)⟩
      (AudioSettings.valid v = false → Refuses (.audioSet r n.toNat v) 0x28#8 r.tag .badValue s)
      ∧ (AudioSettings.valid v = true → ∃ t, exec (.audioSet r n.toNat v) s = .next t ∧ Replied 0x28#8 r.tag .ok .empty s t
        ∧ t.mixers.get n = { m with
            settings := v
            change := if differs then some pending else none
            fade :=
              if v.fieldAudio = true then
                if differs then .fadingOut
                else if m.change ≠ none then .fadingIn
                else if m.settings.fieldAudio = true then m.fade
                else match m.fade with
                  | .opened => .opened
                  | _ => .fadingIn
              else match m.fade with
                | .silent => .silent
                | _ => .fadingOut }
        ∧ OnlyChanges [.requests, .transmitter, .mixer n] s t))
    ∧ (InTurn 0x29#8 r.tag s → ∃ t, exec (.audioStatus r n.toNat) s = .next t
      ∧ Replied 0x29#8 r.tag .ok (.audio ⟨m.settings, m.appliedD, m.appliedRoute, m.change, m.fade, m.fadeGain, m.duck, m.duckGain,
          State.level s (.programPresent n), State.level s (.clipped n), s.intake.progPresent, s.intake.annPresent⟩) s t
      ∧ OnlyChanges [.requests, .transmitter] s t)

/-- A block boundary of a mixer, after 96 sample instants: CLIPPED falls after a block without a clamp; the settings are taken into
use; a pending change is applied with field audio OFF, or where a fade-out reaches 0; the fade and the duck take their steps (R44,
R49, R50, R51, R54, R57, R60). When LIVE is noted is log 15's; a boundary before the block is whole is no such event (log 5). -/
def Obligations.BlockBoundaryStepsTheMixer : Prop :=
  ∀ (s : State) (n : Nr),
    ((s.mixers.get n).block.length < 96 → ∃ t, exec (.blockBoundary n) s = .next t ∧ OnlyChanges [.transmitter] s t)
    ∧ (96 ≤ (s.mixers.get n).block.length → ∃ t, exec (.blockBoundary n) s = .next t ∧
    let m := s.mixers.get n
    let u := t.mixers.get n
    let depth := m.settings.duckDepth
    let down := (4096 - depth + m.settings.rampDown - 1) / m.settings.rampDown
    let up := (4096 - depth + m.settings.rampUp - 1) / m.settings.rampUp
    let lower := if down = 0 then depth else max depth (m.duckGain - down)
    let applies := m.settings.fieldAudio = false ∨ (m.fade = .fadingOut ∧ m.fadeGain ≤ 1024)
    u.settings = m.settings
      ∧ u.inUse = ⟨m.settings.trim, m.settings.annGain, m.settings.duckDepth, m.settings.rampDown, m.settings.rampUp⟩
      ∧ u.block = [] ∧ u.clamped = false
      ∧ (u.liveNoted = true ↔ ∃ a ∈ s.announce.active, a.phase = .live ∧ a.targets.get n = true)
      ∧ State.level t (.clipped n) = (m.clamped && State.level s (.clipped n))
      ∧ (m.change = none ∨ ¬ applies → u.change = m.change ∧ u.appliedD = m.appliedD ∧ u.appliedRoute = m.appliedRoute
        ∧ t.delays.get n = s.delays.get n ∧ State.level t (.programPresent n) = State.level s (.programPresent n))
      ∧ (applies → ∀ c, m.change = some c → u.change = none ∧ u.appliedD = c.target
        ∧ (c.route = false → u.appliedRoute = m.appliedRoute ∧ t.delays.get n = s.delays.get n)
        ∧ (c.route = true → ∀ k, Nr.ofNat? m.settings.route = some k → u.appliedRoute = k
          ∧ t.delays.get n = { s.delays.get n with slots := [] }
          ∧ State.level t (.programPresent n) = s.intake.progPresent.get k))
      ∧ (match m.fade with
        | .silent => u.fade = .silent ∧ u.fadeGain = m.fadeGain
        | .opened => u.fade = .opened ∧ u.fadeGain = m.fadeGain
        | .fadingIn => u.fadeGain = min 4096 (m.fadeGain + 1024)
          ∧ u.fade = if m.fadeGain + 1024 < 4096 then .fadingIn else .opened
        | .fadingOut => u.fadeGain = m.fadeGain - 1024
          ∧ u.fade = if 1024 < m.fadeGain then .fadingOut
            else if m.settings.fieldAudio = true ∧ m.change ≠ none then .fadingIn else .silent)
      ∧ (match m.duck with
        | .full => u.duck = .full ∧ u.duckGain = 4096
        | .ducking => u.duckGain = lower ∧ u.duck = if lower = depth then .ducked else .ducking
        | .ducked => u.duck = .ducked ∧ u.duckGain =
            if depth < m.duckGain then lower
            else if m.duckGain < depth then (if up = 0 then depth else min depth (m.duckGain + up)) else depth
        | .releasing =>
          u.duckGain = (if up = 0 then 4096 else min 4096 (m.duckGain + up))
          ∧ u.duck = if up = 0 ∨ 4096 ≤ m.duckGain + up then .full else .releasing))

/-- The line's side of a block boundary, at which the mixer hands a whole block of 96 sample frames: the sequence advances in every
line state; in RUNNING the block is the AUDIO frame of the cycle that begins, unless a survey waits; in STARTING the boundaries are
counted from the first; a block that is not carried is discarded. The boundary at which the count reaches 10, and that at which a
line returns from its survey, are LinesRunAndFault's; that at which a WAITING survey begins is SurveysRun's (R61, R88, R89, R92, R96,
R128, R132). A cycle in progress is whole before the boundary: where no command has told of the end of its AUDIO frame or of its reply
window, these come first, and the window had no bits, the model's choice (log 47). STARTING_COMPLETE, SURVEY_BEGIN_AT_BOUNDARY and
SURVEY_RETURN_TO_RUNNING stand for the boundary at which what they name is due, the model's choice (log 18). -/
def Obligations.BlockBoundaryStepsTheLine : Prop :=
  ∀ (s : State) (n : Nr), 96 ≤ (s.mixers.get n).block.length → ∃ t, exec (.blockBoundary n) s = .next t ∧
    let l := s.lines.get n
    let u := s.surveys.get n
    let handed := { l with sequence := l.sequence + 1 }
    let f : AudioFrame := ⟨l.sequence + 1, (s.mixers.get n).block⟩
    (t.lines.get n).sequence = l.sequence + 1
    ∧ (l.state = .running → l.wire = .audio →
      ∃ w, Runs [.audioFrameDone n, .replyWindowEnd n [], .blockBoundary n] s w ∧ OnlyChanges [.transmitter] w t)
    ∧ (l.state = .running → l.wire = .exchange →
      ∃ w, Runs [.replyWindowEnd n [], .blockBoundary n] s w ∧ OnlyChanges [.transmitter] w t)
    ∧ (match l.state with
      | .off => t.lines.get n = handed
      | .starting => (l.started = false → t.lines.get n = { handed with started := true })
        ∧ (l.started = true → l.startCount < 9 → t.lines.get n = { handed with startCount := l.startCount + 1 })
      | .running => u.state ≠ .waiting → l.wire ≠ .audio → l.wire ≠ .exchange →
        t.lines.get n = { handed with wire := .audio, audioFrame := some f, downFrame := none, poll := none }
      | .survey => u.state ≠ .idle → t.lines.get n = handed
      | .fault => u.state ≠ .waiting → t.lines.get n = handed)
    ∧ (l.state = .starting → l.started = true → 9 ≤ l.startCount → exec (.startingComplete n) s = .next t)
    ∧ (u.state = .waiting → l.state = .running ∨ l.state = .fault → exec (.surveyBeginAtBoundary n) s = .next t)
    ∧ (l.state = .survey → u.state = .idle → exec (.surveyReturnToRunning n) s = .next t)

/-! ### Announcements and chimes (chapter 4) -/

/-- ANNOUNCE: an invalid one is refused; a record that finds its fields and the live source free is granted, and its fields duck; a
priority-1 record preempts records of lower priority that stand in its way, in order of grant: their voices stop, the source-loss
timer of one in LIVE is cancelled, and the fields that it does not target duck no more; ANNOUNCE_STATE tells of it QUEUED, of each
that it preempts ENDED with PREEMPTED, and of it DUCKING; the walk then goes on, and grants a record further back that finds all it
needs free, the others still waiting; any other waits, after the records of equal or more urgent priority and before the rest. With
16 records waiting it is refused with FULL (R63, R64, R65, R67, R68, R69, R78). Moments are counts of the model's own clock, the
model's choice (log 3). -/
def Obligations.AnnouncementsAreQueuedAndGranted : Prop :=
  ∀ (s : State) (r : Req) (kind : AnnKind) (pattern : Nat) (targets : List Nat) (priority duration : Nat),
    InTurn 0x30#8 r.tag s → r.form = .fits →
    let c := Instr.announce r kind pattern targets priority duration
    let set : Four Bool := .tabulate fun n => targets.contains n.toNat
    let blocks (b : Ann) : Bool := (Nr.all.any fun n => set.get n && b.targets.get n) || (kind == .live && b.kind == .live)
    let tellsOf (a : Ann) (mark : AnnMark) : Report := .announceState a.id a.kind a.pattern a.targets a.priority a.origin mark
    -- what a preempting record leaves of those in its way: their slots, voices and the live source freed, the fields that no record
    -- granted takes released, and the reports of the record queued, of each preempted one in order of grant, and of each grant
    let preempts (waiting : Ann) (grants : List Ann) (t : State) : Prop :=
      let ended := s.announce.active.filter blocks
      t.announce.active = (s.announce.active.filter fun b => !blocks b) ++ grants
      ∧ (∀ n, t.announce.voices.get n = if ∃ b ∈ ended, b.targets.get n = true then .idle else s.announce.voices.get n)
      ∧ t.announce.sourceLoss = (if ∃ b ∈ ended, b.phase = .live then none else s.announce.sourceLoss)
      ∧ (∀ n, t.mixers.get n = if ∃ g ∈ grants, g.targets.get n = true then { s.mixers.get n with duck := .ducking }
          else if (∃ b ∈ ended, b.targets.get n = true) ∧ (s.mixers.get n).duck ≠ .full then
            { s.mixers.get n with duck := .releasing }
          else s.mixers.get n)
      ∧ Makes .announce (tellsOf waiting (.phase .queued) :: (ended.map fun b => tellsOf b (.ended .preempted))
          ++ grants.map fun g => tellsOf g (.phase .ducking)) s t
    let seconds := if duration = 0 then 30 else duration
    let valid := announceValid kind pattern targets priority duration = true
    (¬ valid → Refuses c 0x30#8 r.tag .badValue s)
    ∧ (valid → 16 ≤ s.announce.queue.length → Refuses c 0x30#8 r.tag .full s)
    ∧ (valid → s.announce.queue = [] → 1 ≤ s.announce.nextId → s.announce.nextId ≤ 255 → s.announce.active.length < 255 →
      ∀ id, IsFirstFree 255 (s.announce.active.map (·.id)) s.announce.nextId id →
      let waiting : Ann := ⟨id, kind, pattern, set, priority, seconds, .host, .queued, .all false, none⟩
      let granted : Ann := { waiting with phase := .ducking, awaited := set, timer := some (s.clock + seconds * 1000) }
      ∃ t, exec c s = .next t ∧ Replied 0x30#8 r.tag .ok (.announceId id) s t
        ∧ t.announce.nextId = (if id < 255 then id + 1 else 1)
        ∧ ((∀ b ∈ s.announce.active, ¬ blocks b) → t.announce.queue = [] ∧ t.announce.active = s.announce.active ++ [granted]
          ∧ (∀ n, t.mixers.get n = if set.get n = true then { s.mixers.get n with duck := .ducking } else s.mixers.get n)
          ∧ Makes .announce [tellsOf waiting (.phase .queued), tellsOf granted (.phase .ducking)] s t)
        ∧ ((∃ b ∈ s.announce.active, blocks b ∧ (priority ≠ 1 ∨ b.priority = 1)) →
          t.announce.queue = [waiting] ∧ t.announce.active = s.announce.active ∧ t.mixers = s.mixers
          ∧ Makes .announce [tellsOf waiting (.phase .queued)] s t)
        ∧ (priority = 1 → (∃ b ∈ s.announce.active, blocks b) → (∀ b ∈ s.announce.active, blocks b → b.priority ≠ 1) →
          (s.announce.active.map (·.id)).Nodup → t.announce.queue = [] ∧ preempts waiting [granted] t))
    ∧ (valid → s.announce.queue.length < 16 → s.announce.queue.length + s.announce.active.length < 255 → 1 ≤ s.announce.nextId →
      s.announce.nextId ≤ 255 → (s.announce.queue.Pairwise fun x y => x.priority ≤ y.priority) →
      (∀ x ∈ s.announce.queue, ∃ b ∈ s.announce.active, ((∃ n, x.targets.get n = true ∧ b.targets.get n = true)
        ∨ (x.kind = .live ∧ b.kind = .live)) ∧ (x.priority ≠ 1 ∨ b.priority = 1)) →
      ∀ id, IsFirstFree 255 (s.announce.queue.map (·.id) ++ s.announce.active.map (·.id)) s.announce.nextId id →
      let waiting : Ann := ⟨id, kind, pattern, set, priority, seconds, .host, .queued, .all false, none⟩
      let granted : Ann := { waiting with phase := .ducking, awaited := set, timer := some (s.clock + seconds * 1000) }
      ∃ t, exec c s = .next t ∧ Replied 0x30#8 r.tag .ok (.announceId id) s t
        ∧ ((∀ b ∈ s.announce.active, ¬ blocks b) →
          t.announce.queue = s.announce.queue ∧ t.announce.active = s.announce.active ++ [granted]
          ∧ (∀ n, t.mixers.get n = if set.get n = true then { s.mixers.get n with duck := .ducking } else s.mixers.get n)
          ∧ Makes .announce [tellsOf waiting (.phase .queued), tellsOf granted (.phase .ducking)] s t)
        ∧ ((∃ b ∈ s.announce.active, blocks b ∧ (priority ≠ 1 ∨ b.priority = 1)) →
          t.announce.queue = (s.announce.queue.filter fun x => decide (x.priority ≤ priority)) ++ waiting
            :: (s.announce.queue.filter fun x => decide (priority < x.priority))
          ∧ t.announce.active = s.announce.active ∧ t.mixers = s.mixers
          ∧ Makes .announce [tellsOf waiting (.phase .queued)] s t)
        -- it preempts, and every record that waits still finds one in its way
        ∧ (priority = 1 → (∃ b ∈ s.announce.active, blocks b) → (∀ b ∈ s.announce.active, blocks b → b.priority ≠ 1) →
          (s.announce.active.map (·.id)).Nodup →
          (∀ x ∈ s.announce.queue, ∃ b ∈ (s.announce.active.filter fun b => !blocks b) ++ [granted],
            ((∃ n, x.targets.get n = true ∧ b.targets.get n = true) ∨ (x.kind = .live ∧ b.kind = .live))
            ∧ (x.priority ≠ 1 ∨ b.priority = 1)) →
          t.announce.queue = s.announce.queue ∧ preempts waiting [granted] t)
        -- it preempts, and the walk of the grant test goes on to records further back that now find all they need free
        ∧ (priority = 1 → (∃ b ∈ s.announce.active, blocks b) → (∀ b ∈ s.announce.active, blocks b → b.priority ≠ 1) →
          ((s.announce.queue ++ s.announce.active).map (·.id)).Nodup →
          ∀ skipped next rest, s.announce.queue = skipped ++ next :: rest → next.priority ≠ 1 →
            let free (x b : Ann) : Prop :=
              (∀ n, x.targets.get n = true → b.targets.get n = false) ∧ (x.kind = .live → b.kind ≠ .live)
            let held := (s.announce.active.filter fun b => !blocks b) ++ [granted]
            (∀ x ∈ skipped, ∃ b ∈ held, ¬ free x b) → (∀ b ∈ held, free next b) → (∀ x ∈ rest, ∃ b ∈ held ++ [next], ¬ free x b) →
            t.announce.queue = skipped ++ rest ∧ preempts waiting [granted, { next with
              phase := .ducking, awaited := next.targets, timer := some (s.clock + next.maxDuration * 1000) }] t))

/-- An announcement's end with no record waiting, by ANNOUNCE_END, by its duration timer, by the source-loss timer, and by the end
of its last chime voice: its slots and the live source are free, its voices stop, its fields duck no more, and ANNOUNCE_STATE tells
the reason (R71, R74, R75, R76, R77, R78). With records waiting, its end by ANNOUNCE_END or by its duration timer grants the first
of them that finds all it needs free, in queue order, and passes over those that do not (R68). ANNOUNCE_END of a queued record
removes it, with reason CANCELLED, and it is granted no more; an id that no record bears is NOT_FOUND, and one outside 1-255 refused
(R76). CHIME_DEFINE replaces a pattern and leaves the notes that sound; a wrong value is refused (R72, R79). Moments are counts of
the model's own clock, the model's choice (log 3). -/
def Obligations.AnnouncementsEndOrAreCancelled : Prop :=
  (∀ (s : State) (a : Ann), a ∈ s.announce.active → (s.announce.active.map (·.id)).Nodup → s.announce.queue = [] →
     let ended (reason : AnnReason) (t : State) : Prop :=
       t.announce.active = (s.announce.active.filter fun b => decide (b.id ≠ a.id)) ∧ t.announce.queue = []
       ∧ t.announce.sourceLoss = (if a.phase = .live then none else s.announce.sourceLoss)
       ∧ (∀ n, t.announce.voices.get n = if a.targets.get n = true then .idle else s.announce.voices.get n)
       ∧ (∀ n, t.mixers.get n = if a.targets.get n = true ∧ (s.mixers.get n).duck ≠ .full
           then { s.mixers.get n with duck := .releasing } else s.mixers.get n)
       ∧ Makes .announce [.announceState a.id a.kind a.pattern a.targets a.priority a.origin (.ended reason)] s t
     (∀ r : Req, InTurn 0x31#8 r.tag s → r.form = .fits → 1 ≤ a.id → a.id ≤ 255 →
       ∃ t, exec (.announceEnd r a.id) s = .next t ∧ Replied 0x31#8 r.tag .ok .empty s t ∧ ended .ended t)
     ∧ (∀ d, a.timer = some d → ∃ t, exec (.announceDurationExpiry a.id) s = .next t ∧ t.clock = max s.clock d ∧ ended .timeout t)
     ∧ (∀ d, s.announce.sourceLoss = some d → a.phase = .live → (∀ b ∈ s.announce.active, b.phase = .live → b = a) →
       ∃ t, exec .sourceLossExpiry s = .next t ∧ t.clock = max s.clock d ∧ ended .noSource t)
     ∧ (∀ n note level k, a.phase = .chime → a.kind = .chime → a.targets.get n = true →
       (∀ b ∈ s.announce.active, b.targets.get n = true → b = a) → s.announce.voices.get n = .sounding [note] level k →
       note.duration * 48 ≤ k → (∀ i, i ≠ n → a.targets.get i = true → s.announce.voices.get i = .idle) →
       ∃ t, exec (.chimeVoiceFinished n) s = .next t ∧ ended .complete t))
  ∧ (∀ (s : State) (a next : Ann) (skipped rest : List Ann), a ∈ s.announce.active → s.announce.queue = skipped ++ next :: rest →
       ((s.announce.queue ++ s.announce.active).map (·.id)).Nodup →
       let others := s.announce.active.filter fun b => decide (b.id ≠ a.id)
       let blocks (x b : Ann) : Prop := (∃ n, x.targets.get n = true ∧ b.targets.get n = true) ∨ (x.kind = .live ∧ b.kind = .live)
       let stuck (x : Ann) (active : List Ann) : Prop := ∃ b ∈ active, blocks x b ∧ (x.priority ≠ 1 ∨ b.priority = 1)
       (∀ x ∈ skipped, stuck x others) → (∀ b ∈ others, ¬ blocks next b) → (∀ x ∈ rest, stuck x (others ++ [next])) →
       let tellsOf (b : Ann) (mark : AnnMark) : Report := .announceState b.id b.kind b.pattern b.targets b.priority b.origin mark
       let passes (reason : AnnReason) (clock : Nat) (t : State) : Prop :=
         t.announce.queue = skipped ++ rest
         ∧ t.announce.active = others ++ [{ next with
             phase := .ducking, awaited := next.targets, timer := some (clock + next.maxDuration * 1000) }]
         ∧ (∀ n, t.announce.voices.get n = if a.targets.get n = true then .idle else s.announce.voices.get n)
         ∧ (∀ n, t.mixers.get n = if next.targets.get n = true then { s.mixers.get n with duck := .ducking }
             else if a.targets.get n = true ∧ (s.mixers.get n).duck ≠ .full then { s.mixers.get n with duck := .releasing }
             else s.mixers.get n)
         ∧ Makes .announce [tellsOf a (.ended reason), tellsOf next (.phase .ducking)] s t
       (∀ r : Req, InTurn 0x31#8 r.tag s → r.form = .fits → 1 ≤ a.id → a.id ≤ 255 →
         ∃ t, exec (.announceEnd r a.id) s = .next t ∧ Replied 0x31#8 r.tag .ok .empty s t ∧ passes .ended s.clock t)
       ∧ (∀ d, a.timer = some d → ∃ t, exec (.announceDurationExpiry a.id) s = .next t ∧ t.clock = max s.clock d
         ∧ passes .timeout (max s.clock d) t))
  ∧ (∀ (s : State) (r : Req), r.form = .fits →
       (InTurn 0x31#8 r.tag s →
         (∀ id, ¬ (1 ≤ id ∧ id ≤ 255) → Refuses (.announceEnd r id) 0x31#8 r.tag .badValue s)
         ∧ (∀ id, 1 ≤ id → id ≤ 255 → id ∉ s.announce.queue.map (·.id) → id ∉ s.announce.active.map (·.id) →
           Refuses (.announceEnd r id) 0x31#8 r.tag .notFound s)
         ∧ (∀ a ∈ s.announce.queue, 1 ≤ a.id → a.id ≤ 255 → (s.announce.queue.map (·.id)).Nodup →
           ∃ t, exec (.announceEnd r a.id) s = .next t ∧ Replied 0x31#8 r.tag .ok .empty s t
             ∧ t.announce = { s.announce with queue := s.announce.queue.filter fun b => decide (b.id ≠ a.id) } ∧ t.mixers = s.mixers
             ∧ Makes .announce [.announceState a.id a.kind a.pattern a.targets a.priority a.origin (.ended .cancelled)] s t))
       ∧ (∀ pattern notes level, InTurn 0x32#8 r.tag s →
         let c := Instr.chimeDefine r pattern notes.length notes level
         (chimeValid pattern notes.length notes level = false → Refuses c 0x32#8 r.tag .badValue s)
         ∧ (chimeValid pattern notes.length notes level = true → ∃ t, exec c s = .next t ∧ Replied 0x32#8 r.tag .ok .empty s t
           ∧ t.announce = { s.announce with patterns := s.announce.patterns.set (pattern - 1) ⟨notes, level⟩ }
           ∧ OnlyChanges [.requests, .transmitter, .announce] s t)))

/-- From grant to sound: the DUCKED notice of the last awaited field starts the chime's voices on every target, each with its own
copy of the pattern, or puts a LIVE record without a chime on the air, where an ABSENT source starts the source-loss timer; a
started voice sounds its first note from the field's next block boundary; the end of a note that is not the last begins the next;
the end of the last voice puts a LIVE record on the air (R70, R71, R72, R73, R74). The place of LIVE and of the voices in a boundary
is log 15's. That an end of a note or voice before its time changes nothing is the model's choice (logs 4, 5). Moments are counts of
the model's own clock, the model's choice (log 3). -/
def Obligations.AnnouncementsSound : Prop :=
  ∀ (s : State) (n : Nr),
    let m := s.mixers.get n
    (∀ a ∈ s.announce.active, a.targets.get n = true → (∀ b ∈ s.announce.active, b.targets.get n = true → b = a) →
      (s.announce.active.map (·.id)).Nodup →
      let on (phase : AnnPhase) (t : State) : Prop := (∃ b ∈ t.announce.active, b.id = a.id ∧ b.phase = phase)
      let onAir (t : State) : Prop := on .live t
        ∧ t.announce.sourceLoss = if s.intake.annPresent = true then none else some (s.clock + 2000)
      (a.phase = .ducking → (∀ i, a.awaited.get i = true → i = n) → m.duck = .ducking → m.duckGain = m.settings.duckDepth →
        96 ≤ m.block.length →
        ∃ t, exec (.blockBoundary n) s = .next t
          ∧ (a.kind = .chime ∨ a.pattern ≠ 0 → on .chime t ∧ ∀ p, s.announce.patterns[a.pattern - 1]? = some p →
              ∀ i, a.targets.get i = true → t.announce.voices.get i = .started p.notes p.level)
          ∧ (a.kind = .live → a.pattern = 0 → onAir t))
      ∧ (∀ note level k, a.phase = .chime → a.kind = .live → s.announce.voices.get n = .sounding [note] level k →
        note.duration * 48 ≤ k → (∀ i, i ≠ n → a.targets.get i = true → s.announce.voices.get i = .idle) →
        ∃ t, exec (.chimeVoiceFinished n) s = .next t ∧ t.announce.voices.get n = .idle ∧ onAir t))
    ∧ (∀ notes level, s.announce.voices.get n = .started notes level → m.duck ≠ .ducking → 96 ≤ m.block.length →
      ∃ t, exec (.blockBoundary n) s = .next t ∧ t.announce.voices.get n = .sounding notes level 0)
    ∧ (∀ note next rest level k, s.announce.voices.get n = .sounding (note :: next :: rest) level k →
      (note.duration * 48 ≤ k → ∃ t, exec (.chimeNoteEnd n) s = .next t
        ∧ t.announce = { s.announce with voices := s.announce.voices.set n (.sounding (next :: rest) level 0) }
        ∧ OnlyChanges [.announce, .transmitter] s t)
      ∧ (k < note.duration * 48 → ∃ t, exec (.chimeNoteEnd n) s = .next t ∧ OnlyChanges [.transmitter] s t))
    ∧ (∀ note level k, s.announce.voices.get n = .sounding [note] level k → k < note.duration * 48 →
      ∃ t, exec (.chimeVoiceFinished n) s = .next t ∧ OnlyChanges [.transmitter] s t)

/-! ### Field lines (chapter 5) -/

/-- LINE_SET replaces the settings, and cancels the auto-survey timer where it clears the flag; the reply is the line's present
state (R99). LINE_START is taken in OFF, and in FAULT with LFAULT clear and no survey waiting: the line is STARTING and drives
flags; from OFF with LFAULT active it goes on to FAULT. LINE_STOP is refused in OFF, and else turns the line off, aborts its survey,
drops its messages and forgets its posts (R91, R93, R94, R98, R133). An AUDIO frame completes after LINE_STOP; that the pair shows
as undriven at once, and what a LINE_START in that time does, is the model's choice (log 46). The reports of the line, in order: of
LINE_START LINE_STATE with REQUEST, and after it those of an entry to FAULT; of LINE_STOP SURVEY_DONE with ABORTED and no records
where a survey was not IDLE, DOWN_FAILED with LINE_STOPPED of every message in queue order, and LINE_STATE with REQUEST (R94, R98,
R121, R133). How the last thing on the pair ended is left open in a cycle's exchange (log 19). The return state in an aborted result
is log 45's. Moments are counts of the model's own clock, the model's choice (log 3). -/
def Obligations.LineRequestsAreTaken : Prop :=
  ∀ (s : State) (r : Req) (n : Nr), r.form = .fits →
    let l := s.lines.get n
    let u := s.surveys.get n
    (∀ v : LineSettings, InTurn 0x38#8 r.tag s →
      (LineSettings.valid v = false → Refuses (.lineSet r n.toNat v) 0x38#8 r.tag .badValue s)
      ∧ (LineSettings.valid v = true → ∃ t, exec (.lineSet r n.toNat v) s = .next t
        ∧ t.lines.get n = { l with settings := v, autoTimer := if v.autoSurvey = true then l.autoTimer else none }
        ∧ Replied 0x38#8 r.tag .ok (.line ⟨l.state, l.lfault.level, State.level s (.lineUp n), decide (u.state = .waiting),
            match (t.lines.get n).autoTimer with
              | none => 0
              | some d => d - s.clock,
            l.sequence, l.tallies⟩) s t
        ∧ OnlyChanges [.requests, .transmitter, .line n] s t))
    ∧ (InTurn 0x39#8 r.tag s →
      let c := Instr.lineStart r n.toNat
      let taken := l.state = .off ∨ (l.state = .fault ∧ l.lfault.level = false ∧ u.state ≠ .waiting)
      (¬ taken → Refuses c 0x39#8 r.tag .wrongState s)
      ∧ (taken → ∃ t, exec c s = .next t ∧ Replied 0x39#8 r.tag .ok .empty s t
        ∧ (l.lfault.level = false →
          t.lines.get n = { l with
              state := .starting, started := false, startCount := 0, autoTimer := none, wire := .flags }
          ∧ State.level t (.lineUp n) = false ∧ State.level t (.fmFault n) = false
          ∧ (Hears .line 3 s → Tells (.lineState n l.state .starting .request) s t)
          ∧ OnlyChanges (.requests :: .transmitter :: .line n :: (Part.cond (.lineUp n) ++ Part.cond (.fmFault n))) s t)
        ∧ (l.lfault.level = true → (t.lines.get n).state = .fault ∧ (t.lines.get n).wire = .undriven
          ∧ (t.lines.get n).autoTimer = (if l.settings.autoSurvey = true then some (s.clock + 1000) else none)
          ∧ State.level t (.lineUp n) = false
          ∧ (Heard .line s t → numbersDistinct s n → TellsLine (.lineState n l.state .starting .request :: (allAgedOut s n
              ++ [.lineState n .starting .fault .lfault])) s t))))
    ∧ (InTurn 0x3A#8 r.tag s →
      let c := Instr.lineStop r n.toNat
      (l.state = .off → Refuses c 0x3A#8 r.tag .wrongState s)
      ∧ (l.state ≠ .off → ∃ t, exec c s = .next t ∧ Replied 0x3A#8 r.tag .ok .empty s t
        ∧ t.lines.get n = { l with
            state := .off, wire := .undriven, autoTimer := none, ending := (t.lines.get n).ending }
        ∧ (l.wire = .audio → (t.lines.get n).ending = .complete)
        ∧ (l.wire ≠ .audio → l.wire ≠ .exchange → (t.lines.get n).ending = l.ending)
        ∧ State.level t (.lineUp n) = false ∧ State.level t (.fmFault n) = false
        ∧ (t.surveys.get n).state = .idle
        ∧ (u.state ≠ .idle → (t.surveys.get n).last = some ⟨.aborted, u.cause, u.returnTo, u.velocity, u.threshold, []⟩)
        ∧ (t.posts.get n).queue = []
        ∧ (∀ a, (t.node n a).state = if (s.node n a).state = .disabled then .disabled else .absent)
        ∧ (Heard .line s t → TellsLine ((if u.state = .idle then [] else [.surveyDone n .aborted u.cause u.velocity u.threshold []])
            ++ ((s.posts.get n).queue.map fun e => .downFailed n e.address e.number e.msg.kind e.source .lineStopped)
            ++ [.lineState n l.state .off .request]) s t)))

/-- A line enters RUNNING, from STARTING at the count of 10 and from SURVEY once its survey has ended, at a block boundary, and its
first cycle carries the block handed there; with LFAULT active it goes on to FAULT. From STARTING the posts are forgotten and the
poll schedule starts anew (R89, R92, R93, R96, R98, R103, R112, R132). STARTING_COMPLETE and SURVEY_RETURN_TO_RUNNING stand for that
boundary, and elsewhere change nothing, the model's choice (logs 18, 5). One sample of LFAULTn: a sample equal to the filtered level
clears the run; the second that differs changes the level. Where it becomes ACTIVE in STARTING or RUNNING the line enters FAULT:
nothing drives the pair, LINE_UP falls, the PRESENT records become SILENT, and the auto-survey timer starts where its flag is set
(R93, R95, R97, R98). The reports of the line, in order: the entry to RUNNING makes LINE_STATE with START_DONE or SURVEY_END, the
entry to FAULT LINE_STATE with LFAULT, and before each come DOWN_FAILED of the aged messages of the records that leave PRESENT, in
order of address and of the queue, the model's reading (R98, R120, log 40). Moments are counts of the model's own clock, the model's
choice (log 3). -/
def Obligations.LinesRunAndFault : Prop :=
  (∀ (s : State) (n : Nr),
     let l := s.lines.get n
     let u := s.surveys.get n
     let block := (s.mixers.get n).block
     -- the line in RUNNING at a boundary, in the cycle that carries the block handed there
     let runs (startCount : Nat) (t : State) : Prop := t.lines.get n = { l with
         state := .running, sequence := l.sequence + 1, startCount := startCount, wire := .audio
         audioFrame := some ⟨l.sequence + 1, block⟩, downFrame := none, poll := none }
       ∧ State.level t (.lineUp n) = true
     (l.state = .starting → l.started = true → 9 ≤ l.startCount → 96 ≤ block.length →
       ∀ c ∈ [Instr.blockBoundary n, .startingComplete n], ∃ t, exec c s = .next t
       ∧ (l.lfault.level = false → runs 10 t ∧ State.level t (.fmFault n) = decide ((s.node n 0).state ≠ .disabled))
       ∧ (l.lfault.level = true → (t.lines.get n).state = .fault ∧ (t.lines.get n).wire = .undriven
         ∧ State.level t (.lineUp n) = false ∧ State.level t (.fmFault n) = false)
       ∧ (Heard .line s t → numbersDistinct s n → TellsLine (allAgedOut s n ++ .lineState n .starting .running .startDone ::
           (if l.lfault.level = true then [.lineState n .running .fault .lfault] else [])) s t)
       ∧ (∀ a, (t.node n a).state = if (s.node n a).state = .disabled then .disabled else .absent)
       ∧ (t.posts.get n).pollPosition = none ∧ (t.posts.get n).discovery = 96 ∧ (t.posts.get n).cycle = 0)
     ∧ (l.state ≠ .starting ∨ l.started = false ∨ l.startCount < 9 ∨ block.length < 96 →
       ∃ t, exec (.startingComplete n) s = .next t ∧ OnlyChanges [.transmitter] s t)
     ∧ (l.state = .survey → u.state = .idle → 96 ≤ block.length →
       ∀ c ∈ [Instr.blockBoundary n, .surveyReturnToRunning n], ∃ t, exec c s = .next t
       ∧ (l.lfault.level = false → runs l.startCount t ∧ (∀ a, t.node n a = s.node n a))
       ∧ (l.lfault.level = true → (t.lines.get n).state = .fault ∧ (t.lines.get n).wire = .undriven
         ∧ State.level t (.lineUp n) = false)
       ∧ (Heard .line s t → numbersDistinct s n → TellsLine (.lineState n .survey .running .surveyEnd ::
           (if l.lfault.level = true then allAgedOut s n ++ [.lineState n .running .fault .lfault] else [])) s t))
     ∧ (l.state ≠ .survey ∨ u.state ≠ .idle ∨ block.length < 96 →
       ∃ t, exec (.surveyReturnToRunning n) s = .next t ∧ OnlyChanges [.transmitter] s t))
  ∧ (∀ (s : State) (n : Nr) (high : Bool),
       let l := s.lines.get n
       let filtered (f : FilteredLevel) : Prop := ∃ t, exec (.lfaultLevelChange n [high]) s = .next t
         ∧ t.lines.get n = { l with lfault := f } ∧ OnlyChanges [.line n, .transmitter] s t
       (high = l.lfault.level → filtered ⟨l.lfault.level, 0⟩)
       ∧ (high ≠ l.lfault.level → l.lfault.run = 0 → filtered ⟨l.lfault.level, 1⟩)
       ∧ (high ≠ l.lfault.level → l.lfault.run = 1 →
         (high = false ∨ (l.state ≠ .starting ∧ l.state ≠ .running) → filtered ⟨high, 0⟩)
         ∧ (high = true → l.state = .starting ∨ l.state = .running →
           ∃ t, exec (.lfaultLevelChange n [high]) s = .next t
             ∧ t.lines.get n = { l with
                 lfault := ⟨true, 0⟩, state := .fault, wire := .undriven, ending := (t.lines.get n).ending
                 autoTimer := if l.settings.autoSurvey = true then some (s.clock + 1000) else l.autoTimer }
             ∧ State.level t (.lineUp n) = false ∧ State.level t (.fmFault n) = false
             ∧ (Heard .line s t → numbersDistinct s n →
               TellsLine (allAgedOut s n ++ [.lineState n l.state .fault .lfault]) s t)
             ∧ ∀ a, t.node n a = if (s.node n a).state = .present then { s.node n a with
                   state := .silent, silence := some (s.clock + 30000)
                   left := { (s.node n a).left with presence := .unknown, emptySince := none }
                   right := { (s.node n a).right with presence := .unknown, emptySince := none } }
                 else s.node n a)))

/-- The end of the AUDIO frame in RUNNING: the first message of the down queue that may be sent is sent, under the node's toggle;
and a node is polled: each eighth cycle the next ABSENT one, and else the next of the PRESENT and SILENT ones, each counted
cyclically, with its acknowledgment (R88, R103, R104, R116, R117). -/
def Obligations.CycleSendsAndPolls : Prop :=
  ∀ (s : State) (n : Nr),
    let l := s.lines.get n
    let p := s.posts.get n
    let cycle := if p.cycle = 8 then 1 else p.cycle + 1
    let listed (a : Fin 97) : Prop := (s.node n a).state = .present ∨ (s.node n a).state = .silent
    let absent (a : Fin 97) : Prop := (s.node n a).state = .absent
    let nextOf (set : Fin 97 → Prop) (after : Nat) (a : Fin 97) : Prop := set a
      ∧ ((after ≤ a.val ∧ ∀ b, set b → after ≤ b.val → a ≤ b) ∨ ((∀ b, set b → b.val < after) ∧ ∀ b, set b → a ≤ b))
    let sendable (e : DownEntry) : Prop := match e.mark with
      | .waiting => e.address = 255 ∨ ((∃ a : Fin 97, a.val = e.address ∧ (s.node n a).state = .present)
          ∧ ∀ q ∈ p.queue, q.address = e.address → q.mark = .waiting)
      | .outstanding _ polls => polls = 3
    l.state = .running → l.wire = .audio →
    ∃ t down poll, exec (.audioFrameDone n) s = .next t
      ∧ t.lines.get n = { l with wire := .exchange, downFrame := down, poll := some poll } ∧ (t.posts.get n).cycle = cycle
      ∧ (∀ a, t.node n a = s.node n a)
      ∧ ((∃ a, listed a) → cycle ≠ 8 ∨ (∀ a, ¬ absent a) → poll.discovery = false
        ∧ nextOf listed (match p.pollPosition with
          | none => 0
          | some q => q.val + 1) poll.address
        ∧ (t.posts.get n).pollPosition = some poll.address ∧ (t.posts.get n).discovery = p.discovery
        ∧ poll.ack = if poll.address = 0 then 2 else match (s.node n poll.address).upToggle with
          | none => 2
          | some b => b.toNat)
      ∧ ((∃ a, absent a) → cycle = 8 ∨ (∀ a, ¬ listed a) → poll.discovery = true ∧ poll.ack = 2
        ∧ nextOf absent (p.discovery.val + 1) poll.address
        ∧ (t.posts.get n).discovery = poll.address ∧ (t.posts.get n).pollPosition = p.pollPosition)
      ∧ ((∀ a, ¬ absent a ∧ ¬ listed a) → poll = ⟨0, 2, false⟩)
      ∧ ((∀ e ∈ p.queue, ¬ sendable e) → down = none ∧ (t.posts.get n).queue = p.queue)
      ∧ (∀ before e after, p.queue = before ++ e :: after → (p.queue.map (·.number)).Nodup → (∀ q ∈ before, ¬ sendable q) →
        sendable e →
        (e.address = 255 → e.mark = .waiting → down = some ⟨255, 2, e.msg⟩
          ∧ ∃ more, (t.posts.get n).queue = before ++ after ++ more)
        ∧ (∀ a : Fin 97, a.val = e.address → down = some ⟨e.address, (s.node n a).downToggle.toNat, e.msg⟩
          ∧ (t.posts.get n).queue = before ++ { e with mark := match e.mark with
              | .waiting => .outstanding 1 0
              | .outstanding sends _ => .outstanding (sends + 1) 0 } :: after))

/-- A reply of 4 to 68 bytes, framed by flags with its zeros inserted, is read from a reply window whole and GOOD by the node
polled (R82, R84, R86, R87). The receiver's conventions are log 21's. -/
def Obligations.FramedReplyIsReadWhole : Prop :=
  ∀ (address : Nat) (bytes : List Byte) (idle : List Bool), 2 ≤ bytes.length → bytes.length ≤ 66 →
    (bytes.headD 0).toNat = address → (∀ b ∈ idle, b = true) → idle.length ≤ 190 →
    windowOutcome address (idle ++ flag ++ frameBits (withCrc bytes) ++ flag) = (.good, withCrc bytes)

/-! ### Posts and down messages (chapter 6) -/

/-- The end of a reply window in a cycle of RUNNING: the outcome is tallied and goes to the record of the node polled. A GOOD reply
of an ABSENT node polled for discovery, or of a SILENT one, makes it PRESENT with the presences and faults it tells; one of a
PRESENT post clears its error count, and a bay it fills takes the oldest inbound car. An outcome in error is latched, is nothing to
a DISABLED node, and at the third in a row makes a PRESENT node SILENT; a GOOD one whose length does not fit its upstream-present
bit is tallied GOOD and is an error of kind CRC to the record. The exciter's reply gives its carrier and power status, by which
FM_FAULT is decided. POST_STATE tells, with the record's values after it, of an entry to PRESENT with REPLY, of a change of its
fault or status bits with STATUS, and of the third error with ERRORS, after DOWN_FAILED of its aged messages (log 40). A seating
that brings the inbound count down to the threshold ends the hold with SEATED, its HOLD_ENDED, and a fire pass. An upstream message
under a new toggle is handed to its owner after all the rest, before the owed notices of a post that enters PRESENT, and its toggle
becomes the one last accepted, which the polls acknowledge (CycleSendsAndPolls); under the toggle last accepted it changes nothing.
Each order watches its bay: the timer starts when the bay becomes EMPTY, unless its mark is set, and is cancelled when it becomes
OCCUPIED or UNKNOWN (R87, R90, R101, R102, R106, R107, R109, R110, R111, R112, R113, R120, R155, R192; R12, R24, R25 of the hold).
The receiver's conventions are log 21's. Moments are counts of the model's own clock, the model's choice (log 3). -/
def Obligations.ReplyOutcomesReachTheRecords : Prop :=
  ∀ (s : State) (n : Nr) (bits : List Bool) (poll : Poll),
    let l := s.lines.get n
    let a := poll.address
    let v := s.node n a
    let o := windowOutcome a.val bits
    let add (k : WindowOutcome) : ErrorLatch := ⟨v.latch.noReply || decide (k = .noReply), v.latch.crc || decide (k = .crc),
      v.latch.abort || decide (k = .abort), v.latch.overlength || decide (k = .overlength),
      v.latch.wrongAddress || decide (k = .wrongAddress)⟩
    let entered (b : Bay) (occupied : Bool) : Bay :=
      ⟨if occupied then .occupied else .empty, b.enabled, if occupied then none else some s.clock⟩
    let compared (b : Bay) (occupied : Bool) : Bay :=
      if occupied = decide (b.presence = .occupied) then b else entered b occupied
    let seats (b : Bay) (occupied : Bool) : Nat := if b.enabled = true ∧ occupied = true ∧ b.presence ≠ .occupied then 1 else 0
    let enters := (v.state = .absent ∧ poll.discovery = true) ∨ v.state = .silent
    l.state = .running → l.wire = .exchange → l.poll = some poll →
    ∃ t, exec (.replyWindowEnd n bits) s = .next t
      ∧ t.lines.get n = { l with wire := .flags, ending := .complete, tallies := l.tallies.add o.1 }
      ∧ (∀ b, b ≠ a → t.node n b = s.node n b)
      ∧ (v.state = .disabled → t.node n a = v)
      ∧ (v.state = .absent → poll.discovery = false → t.node n a = v)
      ∧ (let upstreamBit := (o.2.getD 1 0x00#8).getLsbD 4
         let misfits := o.1 = .good ∧ if a ≠ 0 ∧ upstreamBit = true then o.2.length < 5 else o.2.length ≠ 4
         ∀ kind, ((o.1 ≠ .good ∧ kind = o.1) ∨ (misfits ∧ kind = .crc)) →
        (v.state = .absent → poll.discovery = true → t.node n a = if kind = .noReply then v else { v with latch := add kind })
        ∧ (v.state = .silent → t.node n a = { v with latch := add kind })
        ∧ (v.state = .present → v.errors < 2 → t.node n a = { v with
            latch := add kind, errors := v.errors + 1, downToggle := (t.node n a).downToggle })
        ∧ (v.state = .present → 2 ≤ v.errors → t.node n a = { v with
            latch := add kind, errors := v.errors + 1, state := .silent, silence := some (s.clock + 30000)
            left := ⟨.unknown, v.left.enabled, none⟩, right := ⟨.unknown, v.right.enabled, none⟩ }
          ∧ (Heard .line s t → TellsLine (agedOut s n a ++ [.postState n a.val .present .silent .errors
              (if a = 0 then .exciter (s.posts.get n).carrier (s.posts.get n).powerLow
               else .post v.speakerFault v.keypadFault .unknown .unknown)]) s t)))
      ∧ (∀ status : Byte, a ≠ 0 → o = (.good, withCrc [byteOf a.val, status]) → status.getLsbD 4 = false →
        (enters →
          t.node n a = { v with
            state := .present, errors := 0, silence := none, downToggle := false, upToggle := none
            left := entered v.left (status.getLsbD 0), right := entered v.right (status.getLsbD 1)
            speakerFault := status.getLsbD 5, keypadFault := status.getLsbD 6 }
          ∧ (Heard .line s t → TellsLine [.postState n a.val v.state .present .reply (.post (status.getLsbD 5) (status.getLsbD 6)
              (if status.getLsbD 0 = true then .occupied else .empty) (if status.getLsbD 1 = true then .occupied else .empty))] s t))
        ∧ (v.state = .present → (∀ e ∈ (s.posts.get n).queue, e.address = a.val → e.mark = .waiting) →
          t.node n a = { v with
            errors := 0, left := compared v.left (status.getLsbD 0), right := compared v.right (status.getLsbD 1)
            speakerFault := status.getLsbD 5, keypadFault := status.getLsbD 6 }
          ∧ (t.fields.get n).inbound
            = (s.fields.get n).inbound.drop (seats v.left (status.getLsbD 0) + seats v.right (status.getLsbD 1))
          ∧ (Heard .line s t → TellsLine (if v.speakerFault = status.getLsbD 5 ∧ v.keypadFault = status.getLsbD 6 then []
              else [.postState n a.val .present .present .status (.post (status.getLsbD 5) (status.getLsbD 6)
                (compared v.left (status.getLsbD 0)).presence (compared v.right (status.getLsbD 1)).presence)]) s t)
          ∧ (let x := s.screens.get n
             let left := (t.fields.get n).inbound.length
             x.state = .holding → left < (s.fields.get n).inbound.length → left ≤ x.settings.holdThreshold →
             (x.cues.map (·.number)).Nodup →
             FirePass s n x.settings left x.position s.clock [.holdEnded n .seated x.overrun x.position] t)))
      ∧ (∀ status : Byte, a = 0 → o = (.good, withCrc [byteOf a.val, status]) →
        let p := s.posts.get n
        let carrier := status.getLsbD 0
        let powerLow := status.getLsbD 1
        let faulty := (!carrier && p.reqCarrier) || powerLow
        let tells (previous : NodeState) (cause : PostCause) : Prop :=
          Hears .line 2 s → Tells (.postState n 0 previous .present cause (.exciter carrier powerLow)) s t
        (enters → t.node n a = { v with
            state := .present, errors := 0, silence := none, downToggle := false, upToggle := none }
          ∧ (t.posts.get n).carrier = carrier ∧ (t.posts.get n).powerLow = powerLow ∧ State.level t (.fmFault n) = faulty
          ∧ tells v.state .reply)
        ∧ (v.state = .present → t.node n a = { v with errors := 0, downToggle := (t.node n a).downToggle }
          ∧ (t.posts.get n).carrier = carrier ∧ (t.posts.get n).powerLow = powerLow
          ∧ (carrier = p.carrier → powerLow = p.powerLow → State.level t (.fmFault n) = State.level s (.fmFault n))
          ∧ (carrier ≠ p.carrier ∨ powerLow ≠ p.powerLow → State.level t (.fmFault n) = faulty ∧ tells .present .status)))
      ∧ (∀ (status kind : Byte) (body : List Byte) (bare : List Bool), a ≠ 0 → status.getLsbD 4 = true →
        o = (.good, withCrc (byteOf a.val :: status :: kind :: body)) →
        windowOutcome a.val bare = (.good, withCrc [byteOf a.val, status &&& 0xEF#8]) →
        let toggle := status.getLsbD 3
        let handed (u : State) : State := upstream n a kind body (u.setNode n a { u.node n a with upToggle := some toggle })
        (v.state = .present → v.upToggle = some toggle → exec (.replyWindowEnd n bare) s = .next t)
        ∧ (v.state = .present → v.upToggle ≠ some toggle → (t.node n a).upToggle = some toggle
          ∧ ∃ u, exec (.replyWindowEnd n bare) s = .next u.kick ∧ t = (handed u).kick)
        ∧ (enters → (t.node n a).upToggle = some toggle
          ∧ ∃ u, exec (.replyWindowEnd n bare) s = .next (postReturned n a.val u).kick
            ∧ t = (postReturned n a.val (handed u)).kick))
      ∧ (∀ r ∈ s.orders.live, r.field = n → r.post = a → (s.orders.live.map (·.number)).Nodup →
        let timed (timer : Option Nat) : Prop := ∃ q ∈ t.orders.live, q.number = r.number ∧ q.bayEmpty = timer
        (o.1 ≠ .good → v.state = .present → 2 ≤ v.errors → timed none)
        ∧ (∀ status : Byte, a ≠ 0 → o = (.good, withCrc [byteOf a.val, status]) → status.getLsbD 4 = false →
          let occupied := match r.side with
            | .left => status.getLsbD 0
            | .right => status.getLsbD 1
          let now : Option Nat := if occupied = true ∨ r.bayEmptyReported = true then none else some (s.clock + 120000)
          (enters → timed now)
          ∧ (v.state = .present → occupied ≠ decide ((v.bay r.side).presence = .occupied) → timed now)
          ∧ (v.state = .present → status.getLsbD 0 = decide (v.left.presence = .occupied) →
            status.getLsbD 1 = decide (v.right.presence = .occupied) → timed r.bayEmpty)))

/-- The fate of an outstanding message at a reply window of its PRESENT node: a GOOD reply under its toggle takes it from the queue
and turns the toggle; one under the other toggle, or an outcome in error, is a poll waited, the third of which makes it due again,
or drops it with NO_ACK after the third send; the third outcome in error in a row returns it to waiting and drops the messages of
the node that have reached the age limit. What other blocks enter comes at the queue's end (R107, R109, R118, R119, R120, R121). The
silence timer's expiry makes a SILENT record ABSENT with the values of that state, which POST_STATE tells (R102, R108, R111). The
age limit drops a waiting message to a node that is not PRESENT (R120, R121). Moments are counts of the model's own clock, the
model's choice (log 3). -/
def Obligations.MessagesAndPostsComeToTheirEnds : Prop :=
  (∀ (s : State) (n : Nr) (bits : List Bool) (poll : Poll) (e : DownEntry) (sends polls : Nat),
     let l := s.lines.get n
     let a := poll.address
     let v := s.node n a
     let p := s.posts.get n
     let o := windowOutcome a.val bits
     let without := p.queue.filter fun q => decide (q.number ≠ e.number)
     let counted := p.queue.map fun q => if q.number = e.number then { q with mark := .outstanding sends (polls + 1) } else q
     let left (toggle : Bool) (queue : List DownEntry) (t : State) : Prop :=
       (t.node n a).downToggle = toggle ∧ ∃ more, (t.posts.get n).queue = queue ++ more
     let failed := Report.downFailed n e.address e.number e.msg.kind e.source .noAck
     l.state = .running → l.wire = .exchange → l.poll = some poll → v.state = .present → e ∈ p.queue → e.address = a.val →
     e.mark = .outstanding sends polls → (∀ q ∈ p.queue, q.address = a.val → q.mark ≠ .waiting → q = e) →
     (p.queue.map (·.number)).Nodup →
     ∃ t, exec (.replyWindowEnd n bits) s = .next t
       ∧ (∀ (status : Byte) (rest : List Byte), o = (.good, withCrc (byteOf a.val :: status :: rest)) →
         (rest ≠ [] ↔ a ≠ 0 ∧ status.getLsbD 4 = true) →
         (status.getLsbD 2 = v.downToggle → left (!v.downToggle) without t)
         ∧ (status.getLsbD 2 ≠ v.downToggle →
           (polls = 3 → left v.downToggle p.queue t)
           ∧ (polls + 1 = 3 → sends = 3 → left (!v.downToggle) without t
             ∧ ((if a = 0 then status.getLsbD 0 = p.carrier ∧ status.getLsbD 1 = p.powerLow
                 else status.getLsbD 0 = decide (v.left.presence = .occupied)
                   ∧ status.getLsbD 1 = decide (v.right.presence = .occupied)
                   ∧ status.getLsbD 5 = v.speakerFault ∧ status.getLsbD 6 = v.keypadFault) →
               Hears .line 1 s → Tells failed s t))
           ∧ (polls ≠ 3 → (polls + 1 ≠ 3 ∨ sends ≠ 3) → left v.downToggle counted t)))
       ∧ (o.1 ≠ .good → v.errors < 2 →
         (polls = 3 → (t.posts.get n).queue = p.queue ∧ (t.node n a).downToggle = v.downToggle)
         ∧ (polls + 1 = 3 → sends = 3 → left (!v.downToggle) without t ∧ (Hears .line 1 s → Tells failed s t))
         ∧ (polls ≠ 3 → (polls + 1 ≠ 3 ∨ sends ≠ 3) →
           (t.posts.get n).queue = counted ∧ (t.node n a).downToggle = v.downToggle))
       ∧ (o.1 ≠ .good → 2 ≤ v.errors →
         let kept := p.queue.filter fun q => decide (q.address = a.val → s.clock < q.entered + 60000)
         left v.downToggle (kept.map fun q => if q.address = a.val then { q with mark := .waiting } else q) t))
  ∧ ((∀ (s : State) (n : Nr) (a : Fin 97) (d : Nat),
       let v := s.node n a
       v.state = .silent → v.silence = some d →
       ∃ t, exec (.postSilenceTimeout n a) s = .next t ∧ t.clock = max s.clock d
         ∧ t.node n a = { v with
             state := .absent, left := ⟨.unknown, v.left.enabled, none⟩, right := ⟨.unknown, v.right.enabled, none⟩
             speakerFault := false, keypadFault := false, downToggle := false, upToggle := none, errors := 0, silence := none }
         ∧ (∀ b, b ≠ a → t.node n b = s.node n b)
         ∧ (Hears .line 2 s → Tells (.postState n a.val .silent .absent .silenceTimeout
             (if a = 0 then .exciter (s.posts.get n).carrier (s.posts.get n).powerLow
              else .post false false .unknown .unknown)) s t)
         ∧ OnlyChanges (.clock :: .transmitter :: .post n :: Part.cond (.fmFault n)) s t)
     ∧ ∀ (s : State) (n : Nr) (e : DownEntry),
       let queue := (s.posts.get n).queue
       e ∈ queue → e.mark = .waiting → e.address ≠ 255 → (∀ a : Fin 97, a.val = e.address → (s.node n a).state ≠ .present) →
       (queue.map (·.number)).Nodup →
       ∃ t, exec (.downMessageAgeLimit n e.number) s = .next t ∧ t.clock = max s.clock (e.entered + 60000)
         ∧ (∃ more, (t.posts.get n).queue = queue.filter (fun q => decide (q.number ≠ e.number)) ++ more)
         ∧ (Hears .line 1 s → Tells (.downFailed n e.address e.number e.msg.kind e.source .notPresent) s t))

/-- POST_READ gives the whole record and clears its latch; POST_SET replaces the bay enables and the position, sends a BAY_CONFIG
where an enable changes, and sets or clears the DISABLED mark, which POST_STATE tells with REQUEST, after DOWN_FAILED of the aged
messages of a record that leaves PRESENT (log 40); POST_SEND and EXCITER_SET put a message at the end of the down queue, with the
counter's number (R116, R111, R120, R122, R123, R124, R125). Moments are counts of the model's own clock, the model's choice (log
3). -/
def Obligations.PostRequestsAreTaken : Prop :=
  ∀ (s : State) (r : Req) (n : Nr), r.form = .fits →
    let p := s.posts.get n
    let count := if p.counter < 65535 then p.counter + 1 else 1
    let entry (address : Nat) (msg : DownMsg) : DownEntry := ⟨p.counter, address, msg, .host, s.clock, .waiting⟩
    -- the reports of the line where POST_SET sets or clears the DISABLED mark of a record
    let marked (a : Fin 97) (disabled : Bool) (detail : PostDetail) : List Report :=
      let v := s.node n a
      if disabled = true ∧ v.state ≠ .disabled then agedOut s n a ++ [.postState n a.val v.state .disabled .request detail]
      else if disabled = false ∧ v.state = .disabled then [.postState n a.val .disabled .absent .request detail] else []
    (InTurn 0x3C#8 r.tag s →
      (∀ address, 96 < address → Refuses (.postRead r n.toNat address) 0x3C#8 r.tag .badValue s)
      ∧ ∀ a : Fin 97, ∃ t, exec (.postRead r n.toNat a.val) s = .next t
        ∧ Replied 0x3C#8 r.tag .ok (.node (nodeReadout s n a)) s t
        ∧ t.node n a = { s.node n a with latch := .empty } ∧ (∀ b, b ≠ a → t.node n b = s.node n b)
        ∧ (t.posts.get n).queue = p.queue ∧ OnlyChanges [.requests, .transmitter, .post n] s t)
    ∧ (InTurn 0x3D#8 r.tag s → ∀ (disabled left right : Bool) (position : Nat),
      (∀ address, 96 < address → Refuses (.postSet r n.toNat address disabled left right position) 0x3D#8 r.tag .badValue s)
      ∧ ∀ a : Fin 97,
        let c := Instr.postSet r n.toNat a.val disabled left right position
        let v := s.node n a
        let needed := (v.left.enabled ≠ left ∨ v.right.enabled ≠ right) ∧ disabled = false ∧ (s.lines.get n).state ≠ .off
        (a ≠ 0 → positionValid position = false → Refuses c 0x3D#8 r.tag .badValue s)
        ∧ (a ≠ 0 → positionValid position = true → needed → 40 ≤ p.queue.length → Refuses c 0x3D#8 r.tag .full s)
        ∧ (a = 0 → ∃ t, exec c s = .next t ∧ Replied 0x3D#8 r.tag .ok (.messageNumber 0) s t
          ∧ (t.node n a).state = (if disabled = true then .disabled else if v.state = .disabled then .absent else v.state)
          ∧ State.level t (.fmFault n) = (if disabled = true ∧ v.state ≠ .disabled then false
              else if disabled = false ∧ v.state = .disabled then decide ((s.lines.get n).state = .running)
              else State.level s (.fmFault n))
          ∧ (Heard .line s t → TellsLine (marked a disabled (.exciter p.carrier p.powerLow)) s t))
        ∧ (a ≠ 0 → positionValid position = true → ¬ needed ∨ p.queue.length < 40 → ∃ t, exec c s = .next t
          ∧ Replied 0x3D#8 r.tag .ok (.messageNumber (if needed then p.counter else 0)) s t
          ∧ (t.node n a).left.enabled = left ∧ (t.node n a).right.enabled = right
          ∧ (t.node n a).position = (if position = 0xFFFF then none else some position)
          ∧ (t.node n a).state = (if disabled = true then .disabled else if v.state = .disabled then .absent else v.state)
          ∧ (Heard .line s t → TellsLine (marked a disabled (.post false false .unknown .unknown)) s t)
          ∧ (needed → (t.posts.get n).queue = p.queue ++ [entry a.val (.bayConfig left right)]
            ∧ (t.posts.get n).counter = count)))
    ∧ (InTurn 0x3E#8 r.tag s → ∀ (address : Nat) (m : BoothMessage),
      let c := Instr.postSend r n.toNat address m
      let msg : DownMsg := match m with
        | .display side seconds _ text => .display side seconds text
        | .chime side pattern => .chime side pattern
        | .other => .chime .both 0
      let right := BoothMessage.valid m = true ∧ ((1 ≤ address ∧ address ≤ 96) ∨ address = 255)
      let stopped := (s.lines.get n).state = .off ∨ ∃ a : Fin 97, a.val = address ∧ (s.node n a).state = .disabled
      countFits c →
      (¬ right → Refuses c 0x3E#8 r.tag .badValue s)
      ∧ (right → stopped → Refuses c 0x3E#8 r.tag .wrongState s)
      ∧ (right → ¬ stopped → 40 ≤ p.queue.length → Refuses c 0x3E#8 r.tag .full s)
      ∧ (right → ¬ stopped → p.queue.length < 40 → ∃ t, exec c s = .next t
        ∧ Replied 0x3E#8 r.tag .ok (.messageNumber p.counter) s t
        ∧ t.posts.get n = { p with queue := p.queue ++ [entry address msg], counter := count }
        ∧ OnlyChanges [.requests, .transmitter, .post n] s t))
    ∧ (InTurn 0x3F#8 r.tag s → ∀ (carrier : Bool) (channel : Nat),
      let c := Instr.exciterSet r n.toNat carrier channel
      let stopped := (s.lines.get n).state = .off ∨ (s.node n 0).state = .disabled
      (199 < channel → Refuses c 0x3F#8 r.tag .badValue s)
      ∧ (channel ≤ 199 → stopped → Refuses c 0x3F#8 r.tag .wrongState s)
      ∧ (channel ≤ 199 → ¬ stopped → 40 ≤ p.queue.length → Refuses c 0x3F#8 r.tag .full s)
      ∧ (channel ≤ 199 → ¬ stopped → p.queue.length < 40 → ∃ t, exec c s = .next t
        ∧ Replied 0x3F#8 r.tag .ok (.messageNumber p.counter) s t
        ∧ t.posts.get n = { p with
            reqCarrier := carrier, channel := channel, queue := p.queue ++ [entry 0 (.exciter carrier channel)], counter := count }
        ∧ (State.level t (.fmFault n) = true ↔ (s.lines.get n).state = .running
          ∧ ((s.node n 0).state ≠ .present ∨ (p.carrier = false ∧ carrier = true) ∨ p.powerLow = true))
        ∧ OnlyChanges (.requests :: .transmitter :: .post n :: Part.cond (.fmFault n)) s t))

/-! ### Line surveys (chapter 7) -/

/-- A survey from its START or the auto-survey timer to its end: which states take it, what it copies, its beginning at a block
boundary, what the line does meanwhile, the capture of the taps, the result it leaves and the return, with the reports of the line:
LINE_STATE of the beginning, SURVEY_DONE, LINE_STATE of the return to OFF or FAULT; READ tells the survey and changes nothing (R96,
R97, R98, R127, R128, R129, R132, R134). The step is launched 20 ms into MEASURING, once, and before the measuring timer expires
(R129); where no command has told of the launch, it comes with the expiry, with samples that are free (log 43). The scale of the
samples is log 23's, the expiry that finds a survey waiting log 37's, that SURVEY_BEGIN_AT_BOUNDARY stands for the boundary at which
the survey begins log 18's, and when its return state becomes FAULT log 45's. A cycle in progress is whole first
(BlockBoundaryStepsTheLine). That the command of its beginning does nothing where none waits or the block is not whole, nor a launch
where none is to come, and an auto-survey expiry outside FAULT no more than end the timer, is the model's choice (log 5). Moments
are counts of the model's own clock, the model's choice (log 3). -/
def Obligations.SurveysRun : Prop :=
  ∀ (s : State) (n : Nr),
    let l := s.lines.get n
    let u := s.surveys.get n
    let showing := (s.screens.get n).state = .armed ∨ (s.screens.get n).state = .running ∨ (s.screens.get n).state = .holding
    let measures (cause : SurveyCause) (velocity threshold : Nat) (back : LineState) (clock : Nat) (sequence : Byte) (t : State) :
        Prop :=
      (t.surveys.get n).state = .measuring ∧ (t.surveys.get n).cause = cause ∧ (t.surveys.get n).velocity = velocity
      ∧ (t.surveys.get n).threshold = threshold ∧ (t.surveys.get n).returnTo = back
      ∧ (t.surveys.get n).timer = some (clock + 40) ∧ (t.surveys.get n).launch = some (clock + 20) ∧ (t.surveys.get n).last = u.last
      ∧ (∀ a p, (a, p) ∈ (t.surveys.get n).positions ↔ ∃ b : Fin 97, b.val = a ∧ a ≠ 0 ∧ (s.node n b).position = some p)
      ∧ t.lines.get n = { l with state := .survey, wire := .survey, autoTimer := none, sequence := sequence }
      ∧ State.level t (.lineUp n) = false ∧ State.level t (.fmFault n) = false
      ∧ (Heard .line s t → TellsLine [.lineState n l.state .survey (match cause with
          | .request => .request
          | .autoSurvey => .autoSurvey)] s t)
    (∀ r : Req, r.form = .fits → InTurn 0x3B#8 r.tag s →
      let c := Instr.lineSurveyStart r n.toNat
      (u.state ≠ .idle ∨ l.state = .starting ∨ l.state = .survey ∨ (l.state = .running ∧ showing) →
        Refuses c 0x3B#8 r.tag .wrongState s)
      ∧ (u.state = .idle → l.state = .off ∨ l.state = .fault → ∃ t, exec c s = .next t
        ∧ Replied 0x3B#8 r.tag .ok (.surveyStarted .atOnce l.settings.velocity l.settings.threshold) s t
        ∧ measures .request l.settings.velocity l.settings.threshold l.state s.clock l.sequence t)
      ∧ (u.state = .idle → l.state = .running → ¬ showing → ∃ t, exec c s = .next t
        ∧ Replied 0x3B#8 r.tag .ok (.surveyStarted .atBoundary l.settings.velocity l.settings.threshold) s t
        ∧ t.surveys.get n = { u with
            state := .waiting, cause := .request, velocity := l.settings.velocity, threshold := l.settings.threshold
            returnTo := .running }
        ∧ t.lines.get n = l)
      ∧ ∃ t, exec (.lineSurveyRead r n.toNat) s = .next t
        ∧ Replied 0x3B#8 r.tag .ok (.survey u.state (match u.state with
            | .idle => none
            | .waiting => some (u.cause, u.velocity, u.threshold, 40)
            | .measuring => some (u.cause, u.velocity, u.threshold, s.left u.timer)) u.last) s t
        ∧ OnlyChanges [.requests, .transmitter] s t)
    ∧ (u.state = .waiting → (l.state = .running ∧ l.wire ≠ .audio ∧ l.wire ≠ .exchange) ∨ l.state = .fault →
      96 ≤ (s.mixers.get n).block.length → ∀ c ∈ [Instr.blockBoundary n, .surveyBeginAtBoundary n], ∃ t, exec c s = .next t
      ∧ measures u.cause u.velocity u.threshold (if l.state = .fault then .fault else u.returnTo) s.clock (l.sequence + 1) t)
    ∧ (u.state ≠ .waiting ∨ (l.state ≠ .running ∧ l.state ≠ .fault) ∨ (s.mixers.get n).block.length < 96 →
      ∃ t, exec (.surveyBeginAtBoundary n) s = .next t ∧ OnlyChanges [.transmitter] s t)
    ∧ (∀ d, l.autoTimer = some d → ∃ t, exec (.autoSurveyExpiry n) s = .next t ∧ t.clock = max s.clock d
      ∧ (l.state = .fault → u.state = .idle →
        measures .autoSurvey l.settings.velocity l.settings.threshold .fault (max s.clock d) l.sequence t)
      ∧ (l.state ≠ .fault ∨ u.state ≠ .idle → t.lines.get n = { l with autoTimer := none } ∧ t.surveys.get n = u))
    ∧ (∀ (samples : List Int) (moment : Nat), u.state = .measuring → u.launch = some moment → samples.length = 2048 →
      ∃ t, exec (.surveyStepLaunch n samples) s = .next t ∧ t.clock = max s.clock moment
        ∧ OnlyChanges [.clock, .survey n, .transmitter] s t
        ∧ t.surveys.get n = { u with taps := (t.surveys.get n).taps, launch := none }
        ∧ ∀ k x, samples[k]? = some x → ∃ v, tapAt (t.surveys.get n).taps k = v ∧ v.natAbs ≤ 127
          ∧ (v.natAbs < 127 → 2 * (512 * v - (x - 65536)).natAbs ≤ 512
            ∧ (2 * (512 * v - (x - 65536)).natAbs = 512 → (x - 65536).natAbs < (512 * v).natAbs))
          ∧ (v = 127 ↔ 64768 ≤ x - 65536) ∧ (v = -127 ↔ x - 65536 ≤ -64768))
    ∧ (∀ samples : List Int, u.state ≠ .measuring ∨ u.launch = none →
      ∃ t, exec (.surveyStepLaunch n samples) s = .next t ∧ OnlyChanges [.transmitter] s t)
    ∧ (∀ d, u.state = .measuring → u.timer = some d → u.launch ≠ none → ∃ (samples : List Int) (w v t : State), samples.length = 2048
      ∧ exec (.surveyStepLaunch n samples) s = .next w ∧ exec (.surveyComplete n) w = .next v
      ∧ exec (.surveyComplete n) s = .next t ∧ t.surveys = v.surveys ∧ t.lines = v.lines ∧ t.clock = v.clock)
    ∧ (∀ d, u.state = .measuring → u.timer = some d → u.launch = none → ∃ t, exec (.surveyComplete n) s = .next t
      ∧ t.clock = max s.clock d ∧ (t.surveys.get n).state = .idle ∧ (t.surveys.get n).timer = none ∧ (t.surveys.get n).taps = u.taps
      ∧ (let result : SurveyResult := ⟨.complete, u.cause, u.returnTo, u.velocity, u.threshold,
            ((scanRuns u.threshold none u.taps).take 4).map u.record⟩
         (t.surveys.get n).last = some result
         ∧ (Heard .line s t → TellsLine (.surveyDone n .complete u.cause u.velocity u.threshold result.records ::
             (if u.returnTo = .running then [] else [.lineState n .survey u.returnTo .surveyEnd])) s t))
      ∧ t.lines.get n = (if u.returnTo = .running then l else { l with state := u.returnTo, wire := .undriven }))

/-- The scan of the tap memory finds the runs at or above the threshold, each once, in ascending order: a run's record has its
largest tap, the lowest on ties, its magnitude and its kind (R130). Taps are listed as log 28 says. -/
def Obligations.ReflectionsAreTheRuns : Prop :=
  ∀ (taps : List (Nat × Int)) (threshold : Nat), 1 ≤ threshold → taps.Pairwise (fun a b => a.1 < b.1) →
    let runs := scanRuns threshold none taps
    runs.Pairwise (fun a b => a.tap < b.tap)
    ∧ (∀ i j, IsRun taps threshold i j → ∃ r ∈ runs, i ≤ r.tap ∧ r.tap < j)
    ∧ ∀ r ∈ runs, ∃ i j, IsRun taps threshold i j ∧ i ≤ r.tap ∧ r.tap < j ∧ r.magnitude = (tapAt taps r.tap).natAbs
      ∧ (r.positive = true ↔ 0 < tapAt taps r.tap)
      ∧ (∀ k, i ≤ k → k < j → (tapAt taps k).natAbs ≤ r.magnitude)
      ∧ ∀ k, i ≤ k → k < r.tap → (tapAt taps k).natAbs < r.magnitude

/-- The distance of a reflection and its nearest post, with the manual's examples (R131). -/
def Obligations.ReflectionsAreLocated : Prop :=
  (∀ tap velocity, distanceOf tap velocity = (tap * velocity * 2998 + 10000) / 20000)
  ∧ distanceOf 2047 99 = 30378 ∧ distanceOf 412 66 = 4076
  ∧ (∀ tap velocity, tap ≤ 2047 → velocity ≤ 99 → distanceOf tap velocity ≤ 30378)
  ∧ (∀ (u : SurveyUnit) (r : TapRun), (u.record r).distance = distanceOf r.tap u.velocity
    ∧ ((u.record r).nearest = none ↔ ∀ p ∈ u.positions, distanceOf r.tap u.velocity < p.2)
    ∧ ∀ a, (u.record r).nearest = some a → ∃ p, (a, p) ∈ u.positions ∧ p ≤ distanceOf r.tap u.velocity
      ∧ ∀ q ∈ u.positions, q.2 ≤ distanceOf r.tap u.velocity → q.2 < p ∨ (q.2 = p ∧ a ≤ q.1))
  ∧ ∀ (s : State) (n : Nr), ∀ p ∈ (s.posts.get n).positions, p.1 ≠ 0
    ∧ ∃ a : Fin 97, a.val = p.1 ∧ (s.node n a).position = some p.2

/-! ### Gate lanes and admissions (chapter 8) -/

/-- The first sample of a lane after a reset sets its levels, starts the blocked timers of the loops that are HIGH, and arms it if
both are LOW (R136, R144); on a lane already sampled the command changes nothing, and neither do samples of LOOP_LEVEL_CHANGE before
the first, the model's choice (log 5). A sample pair that completes no filter moves the run counts alone. A change of one loop on an
armed lane restarts or idles its blocked timer and moves the decoder by its table; the passes it counts, whose list with its flags
the table gives, change the lane's counts, its queue and the site count; an unarmed lane is armed by the change that leaves both
loops LOW. Where both loops change at one sample, B's change meets what A's change has left (R135, R138 to R142, R144, R147).
Sampled inputs are operands, the model's choice (log 7). Moments are counts of the model's own clock, the model's choice (log 3). -/
def Obligations.LanesDecodePasses : Prop :=
  ∀ (s : State) (n : Nr),
    let l := s.lane n
    let deadline := s.clock + l.settings.blockedTime * 1000
    let timer (high : Bool) : BlockedTimer := if high then .running deadline else .idle
    (∀ a b, (l.sampled = false → ∃ t, exec (.laneFirstSample n a b) s = .next t
        ∧ t.lane n = { l with sampled := true, loopA := ⟨a, 0, timer a⟩, loopB := ⟨b, 0, timer b⟩, armed := !a && !b }
        ∧ OnlyChanges [.lane n, .transmitter] s t)
      ∧ (l.sampled = true → ∃ t, exec (.laneFirstSample n a b) s = .next t ∧ OnlyChanges [.transmitter] s t))
    ∧ (∀ samples, l.sampled = false → ∃ t, exec (.loopLevelChange n samples) s = .next t ∧ OnlyChanges [.transmitter] s t)
    ∧ (∀ a b, l.sampled = true → (a = l.loopA.level ∨ l.loopA.run + 1 < l.settings.filterCount) →
      (b = l.loopB.level ∨ l.loopB.run + 1 < l.settings.filterCount) →
      ∃ t, exec (.loopLevelChange n [(a, b)]) s = .next t
        ∧ t.lane n = { l with
            loopA := { l.loopA with run := if a = l.loopA.level then 0 else l.loopA.run + 1 }
            loopB := { l.loopB with run := if b = l.loopB.level then 0 else l.loopB.run + 1 } }
        ∧ OnlyChanges [.lane n, .transmitter] s t)
    ∧ (let a := !l.loopA.level
       let b := !l.loopB.level
       l.sampled = true → l.settings.filterCount ≤ l.loopA.run + 1 → l.settings.filterCount ≤ l.loopB.run + 1 →
       ∃ u : State, exec (.loopLevelChange n [(a, l.loopB.level)]) s = .next u.kick
         ∧ exec (.loopLevelChange n [(a, b)]) s = exec (.loopLevelChange n [(a, b)])
           (u.setLane n { u.lane n with loopB := { (u.lane n).loopB with run := l.loopB.run } }))
    ∧ ∀ loop : LoopName,
      let x := l.loop loop
      let y := l.loop (if loop = .a then .b else .a)
      let up := !x.level
      let turned := turnedLane s n loop
      let after := decoderTable l.decoder l.held loop up
      let passes := after.2.2
      let balks := (passes.filter (·.balk)).length
      let k := (passes.filter fun p => !p.balk).length
      l.sampled = true → l.settings.filterCount ≤ x.run + 1 →
      ∃ t, exec (.loopLevelChange n [differing l loop]) s = .next t
        ∧ (State.level t (.laneBlocked n) = decide (y.blocked = .expired))
        ∧ (l.armed = false → t.lane n = { turned with armed := !up && !y.level }
          ∧ OnlyChanges (.lane n :: Part.cond (.laneBlocked n)) s t)
        ∧ (l.armed = true → passes = [] → t.lane n = { turned with decoder := after.1, held := after.2.1 }
          ∧ OnlyChanges (.lane n :: Part.cond (.laneBlocked n)) s t)
        ∧ (l.armed = true → passes ≠ [] → (∀ p ∈ passes, p.direction = .entry) →
          t.lane n = { turned with
            decoder := after.1, held := after.2.1
            queue := if l.settings.direction = .exit then l.queue else l.queue.drop k
            counts := { l.counts with
              balks := l.counts.balks + BitVec.ofNat 32 balks, entries := l.counts.entries + BitVec.ofNat 32 k
              unpaid := l.counts.unpaid
                + BitVec.ofNat 32 (if l.settings.direction = .exit then k else k - l.queue.length)
              wrongWay := l.counts.wrongWay + (if l.settings.direction = .exit then BitVec.ofNat 32 k else 0) } }
          ∧ (s.gate.site ≤ 4294967295 → t.gate.site = min 4294967295 (s.gate.site + k)))
        ∧ (l.armed = true → passes ≠ [] → (∀ p ∈ passes, p.direction = .exit) →
          t.lane n = { turned with
            decoder := after.1, held := after.2.1
            counts := { l.counts with
              balks := l.counts.balks + BitVec.ofNat 32 balks, exits := l.counts.exits + BitVec.ofNat 32 k
              wrongWay := l.counts.wrongWay + (if l.settings.direction = .entry then BitVec.ofNat 32 k else 0) } }
          ∧ t.gate.site = s.gate.site - k)

/-- The passes that a change of an armed lane's loop counts, one after another in the order of the decoder's table, each whole and
with its reports, after LANE_BLOCKED's (log 44) and before the command's end. One counted pass: the lane and site counts; then PASS
with its direction and flags, the admission it took and the site count; then the inbound arrival of an entry that took an admission,
at the admission's field. An arrival: where 64 are inbound the oldest car gives way, with INBOUND_EXPIRED of reason OVERFLOW; the
new car is appended with its seat timer; available and FIELD_FULL are worked out; and a new count is given to the timeline, which
ends a hold whose threshold it does not exceed (R135, R140 to R143, R147, R154 to R158). Moments are counts of the model's own
clock, the model's choice (log 3). -/
def Obligations.PassesAreReportedAndMatched : Prop :=
  (∀ (s : State) (n : Nr) (loop : LoopName),
     let l := s.lane n
     let after := decoderTable l.decoder l.held loop (!(l.loop loop).level)
     let moved : Lane := { turnedLane s n loop with decoder := after.1, held := after.2.1 }
     let shown := State.setCond (s.setLane n moved) (.laneBlocked n) (decide ((l.loop (if loop = .a then .b else .a)).blocked = .expired))
     l.sampled = true → l.armed = true → l.settings.filterCount ≤ (l.loop loop).run + 1 →
     exec (.loopLevelChange n [differing l loop]) s = .next (after.2.2.foldl (countPass n) shown).kick)
  ∧ (∀ (s : State) (n : Nr) (p : RawPass),
    let l := s.lane n
    let c := l.counts
    let entry := p.balk = false ∧ p.direction = .entry
    let exit := p.balk = false ∧ p.direction = .exit
    let wrong := (entry ∧ l.settings.direction = .exit) ∨ (exit ∧ l.settings.direction = .entry)
    let unpaid := entry ∧ (l.settings.direction = .exit ∨ l.queue = [])
    let site := if entry then (if s.gate.site < 4294967295 then s.gate.site + 1 else s.gate.site)
      else if exit then s.gate.site - 1 else s.gate.site
    let flags : PassFlags := ⟨p.balk, p.tailgate, decide wrong, decide unpaid,
      decide ((entry ∧ 4294967295 ≤ s.gate.site) ∨ (exit ∧ s.gate.site = 0))⟩
    let counts : LaneCounts := ⟨c.entries + (if entry then 1 else 0), c.exits + (if exit then 1 else 0),
      c.balks + (if p.balk = true then 1 else 0), c.unpaid + (if unpaid then 1 else 0), c.wrongWay + (if wrong then 1 else 0)⟩
    -- the pass as it is counted and reported, with the admissions left and the admission taken
    let counted (queue : List Admission) (taken : Option PassAdmission) : State := State.report { s with gate := { s.gate with
        site := site, lanes := s.gate.lanes.set n { l with queue := queue, counts := counts } } }
      .gate (.pass n p.direction flags taken site)
    let t := countPass n s p
    (¬ entry ∨ l.settings.direction = .exit ∨ l.queue = [] →
      t = counted l.queue none ∧ Makes .gate [.pass n p.direction flags none site] s t)
    ∧ ∀ a rest, entry → l.settings.direction ≠ .exit → l.queue = a :: rest →
      let pass : Report := .pass n .entry flags (some ⟨a.id, a.field, a.cls, a.occupants⟩) site
      let u := counted rest (some ⟨a.id, a.field, a.cls, a.occupants⟩)
      let f := s.fields.get a.field
      let x := s.screens.get a.field
      let full : Cond := .fieldFull a.field
      let car : Inbound := ⟨a.id, s.clock, s.clock + f.settings.seatTimeout * 1000⟩
      let inbound := if f.inbound.length < 64 then f.inbound ++ [car] else f.inbound.tail ++ [car]
      let available := (if f.settings.limit = 0 then f.capacity else min f.capacity f.settings.limit) - f.seated - inbound.length
      t = inboundArrives a.field a.id u
      ∧ (f.inbound.length < 64 → t = countTold a.field (decideFull a.field (u.setField a.field { f with inbound := inbound })))
      ∧ (∀ oldest others, 64 ≤ f.inbound.length → f.inbound = oldest :: others →
        t = decideFull a.field (State.report (u.setField a.field { f with inbound := inbound }) .field
          (.inboundExpired a.field oldest.id .overflow ((s.clock - oldest.arrived) / 1000) 64))
        ∧ (State.level t full = State.level s full → Hears .gate 2 s → Hears .field 2 s →
          Reports [pass, .inboundExpired a.field oldest.id .overflow ((s.clock - oldest.arrived) / 1000) 64] s t))
      ∧ t.lane n = { l with queue := rest, counts := counts } ∧ t.gate.site = site
      ∧ t.fields.get a.field = { f with inbound := inbound, available := available }
      ∧ State.level t full = (match State.level s full with
        | false => decide (available = 0)
        | true => decide (available < f.settings.reopenMargin))
      ∧ (x.state ≠ .holding ∨ x.settings.holdThreshold < inbound.length ∨ 64 ≤ f.inbound.length → t.screens = s.screens
        ∧ (State.level t full = State.level s full → f.inbound.length < 64 → Makes .gate [pass] s t))
      ∧ (x.state = .holding → f.inbound.length < 64 → inbound.length ≤ x.settings.holdThreshold → (x.cues.map (·.number)).Nodup →
        FirePass s a.field x.settings inbound.length x.position s.clock [.holdEnded a.field .seated x.overrun x.position] t))

/-- ADMIT queues an admission under the next free id with its expiry timer, checked in the order of its rule; ADMIT_CANCEL
removes one; the expiry timer removes one and tells of it. LANE_SET replaces the settings and clears the run counts; COUNT_READ
tells the lane; COUNT_ADJUST sets the site count or clears the lane's counts (R137, R145, R146, R148, R149, R150, R151). Moments
are counts of the model's own clock, the model's choice (log 3). -/
def Obligations.GateRequestsAreTaken : Prop :=
  ∀ (s : State) (n : Nr),
    let l := s.lane n
    let left (b : BlockedTimer) : Nat := match b with
      | .running d => (d - s.clock + 999) / 1000
      | _ => 0
    let state (b : BlockedTimer) : BlockedReadout := match b with
      | .idle => .idle
      | .running _ => .running
      | .expired => .expired
    let told (l : Lane) : ReplyBody := .lane ⟨l.settings, l.loopA.level, l.loopB.level, l.armed, l.decoder, l.held,
      state l.loopA.blocked, left l.loopA.blocked, state l.loopB.blocked, left l.loopB.blocked, State.level s (.laneBlocked n),
      l.counts, l.queue.length, s.gate.site⟩
    (∀ (r : Req) (k : Nr) (cls : VehicleClass) (people : Nat) (override : Bool), InTurn 0x41#8 r.tag s → r.form = .fits →
      let c := Instr.admitCar r n.toNat k.toNat cls people override
      let right := 1 ≤ people ∧ people ≤ 15 ∧ l.settings.direction ≠ .exit
      (¬ right → Refuses c 0x41#8 r.tag .badValue s)
      ∧ (right → 8 ≤ l.queue.length → Refuses c 0x41#8 r.tag .full s)
      ∧ (right → l.queue.length < 8 → State.level s (.fieldFull k) = true → override = false →
        Refuses c 0x41#8 r.tag .fieldFull s)
      ∧ (right → l.queue.length < 8 → State.level s (.fieldFull k) = false ∨ override = true →
        1 ≤ s.gate.nextId → s.gate.nextId ≤ 65535 → s.gate.ids.length < 65535 →
        ∀ id, IsFirstFree 65535 s.gate.ids s.gate.nextId id →
        ∃ t, exec c s = .next t ∧ Replied 0x41#8 r.tag .ok (.admitted id (l.queue.length + 1)) s t
          ∧ t.lane n = { l with queue := l.queue ++ [⟨id, k, cls, people, s.clock, s.clock + l.settings.expiry * 1000⟩] }
          ∧ t.gate.nextId = (if id < 65535 then id + 1 else 1) ∧ t.gate.site = s.gate.site
          ∧ OnlyChanges [.requests, .transmitter, .lane n, .site] s t))
    ∧ (∀ (r : Req) (id : Nat), InTurn 0x42#8 r.tag s → r.form = .fits →
      let c := Instr.admitCancel r n.toNat id
      (¬ (1 ≤ id ∧ id ≤ 65535) → Refuses c 0x42#8 r.tag .badValue s)
      ∧ (1 ≤ id → id ≤ 65535 → id ∉ l.queue.map (·.id) → Refuses c 0x42#8 r.tag .notFound s)
      ∧ (1 ≤ id → id ≤ 65535 → id ∈ l.queue.map (·.id) → ∃ t, exec c s = .next t
        ∧ (let rest := l.queue.filter fun a => decide (a.id ≠ id)
           t.lane n = { l with queue := rest } ∧ Replied 0x42#8 r.tag .ok (.depth rest.length) s t)
        ∧ OnlyChanges [.requests, .transmitter, .lane n] s t))
    ∧ (∀ a ∈ l.queue, (l.queue.map (·.id)).Nodup → ∃ t, exec (.admissionExpiry n a.id) s = .next t ∧ t.clock = max s.clock a.timer
      ∧ t.lane n = { l with queue := l.queue.filter fun b => decide (b.id ≠ a.id) }
      ∧ Makes .gate [.admitExpired n a.id a.field a.cls a.occupants ((max s.clock a.timer - a.arrived) / 1000)] s t
      ∧ OnlyChanges [.clock, .transmitter, .lane n] s t)
    ∧ (∀ (r : Req) (v : LaneSettings), InTurn 0x40#8 r.tag s → r.form = .fits →
      let c := Instr.laneSet r n.toNat v
      (LaneSettings.valid v = false → Refuses c 0x40#8 r.tag .badValue s)
      ∧ (LaneSettings.valid v = true → v.direction = .exit → l.queue ≠ [] → Refuses c 0x40#8 r.tag .wrongState s)
      ∧ (LaneSettings.valid v = true → v.direction ≠ .exit ∨ l.queue = [] → ∃ t, exec c s = .next t
        ∧ t.lane n = { l with settings := v, loopA := { l.loopA with run := 0 }, loopB := { l.loopB with run := 0 } }
        ∧ Replied 0x40#8 r.tag .ok (told (t.lane n)) s t ∧ OnlyChanges [.requests, .transmitter, .lane n] s t))
    ∧ (∀ r : Req, InTurn 0x43#8 r.tag s → r.form = .fits → ∃ t, exec (.countRead r n.toNat) s = .next t
      ∧ Replied 0x43#8 r.tag .ok (told l) s t ∧ OnlyChanges [.requests, .transmitter] s t)
    ∧ (∀ (r : Req) (value : BitVec 32), InTurn 0x44#8 r.tag s → r.form = .fits →
      (∃ t, exec (.countAdjustSetSite r value) s = .next t ∧ t.gate = { s.gate with site := value.toNat }
        ∧ Replied 0x44#8 r.tag .ok (.siteCount value.toNat) s t ∧ OnlyChanges [.requests, .transmitter, .site] s t)
      ∧ ∃ t, exec (.countAdjustClearLane r n.toNat) s = .next t ∧ t.lane n = { l with counts := ⟨0, 0, 0, 0, 0⟩ }
        ∧ Replied 0x44#8 r.tag .ok (.siteCount s.gate.site) s t ∧ OnlyChanges [.requests, .transmitter, .lane n] s t)
    ∧ ∀ (loop : LoopName) (d : Nat), (l.loop loop).blocked = .running d →
      ∃ t, exec (.blockedTimerExpiry n loop) s = .next t ∧ t.clock = max s.clock d
        ∧ t.lane n = l.setLoop loop { l.loop loop with blocked := .expired } ∧ State.level t (.laneBlocked n) = true
        ∧ OnlyChanges (.clock :: .lane n :: Part.cond (.laneBlocked n)) s t

/-! ### Field occupancy (chapter 9) -/

/-- SEAT_TIMEOUT takes the car from the inbound list, tells of it and works out what is available; the timeline is told of the
count, and a hold that it ends ends with SEATED, its HOLD_ENDED, and a fire pass. FIELD_SET replaces the settings and works it out
anew; FIELD_STATUS tells the field and changes nothing (R154, R156, R157, R160, R161; R12, R24, R25 of the hold). Moments are counts
of the model's own clock, the model's choice (log 3). -/
def Obligations.OccupancyIsKept : Prop :=
  ∀ (s : State) (n : Nr),
    let f := s.fields.get n
    let free (f : Occupancy) : Nat :=
      (if f.settings.limit = 0 then f.capacity else min f.capacity f.settings.limit) - f.seated - f.inbound.length
    let told (t : State) : ReplyBody :=
      let f := t.fields.get n
      .field ⟨f.capacity, if f.settings.limit = 0 then f.capacity else min f.capacity f.settings.limit, f.seated, f.inbound.length,
        f.available, State.level t (.fieldFull n), f.settings, (s.lines.get n).state,
        f.inbound.head?.map fun e => (e.id, (s.clock - e.arrived) / 1000)⟩
    (∀ (k : Nat) (e : Inbound), f.inbound[k]? = some e → ∃ t, exec (.seatTimeout n k) s = .next t ∧ t.clock = max s.clock e.timer
      ∧ t.fields.get n = { f with
          inbound := f.inbound.eraseIdx k, available := free { f with inbound := f.inbound.eraseIdx k } }
      ∧ ((s.screens.get n).state ≠ .holding → State.level s (.fieldFull n) = false → 0 < (t.fields.get n).available →
        Makes .field [.inboundExpired n e.id .timeout ((max s.clock e.timer - e.arrived) / 1000) (f.inbound.eraseIdx k).length] s t)
      ∧ ((s.screens.get n).state = .holding → f.inbound.length - 1 ≤ (s.screens.get n).settings.holdThreshold →
        nothingDue (s.screens.get n) → (t.screens.get n).state = .running ∧ State.level t (.showHolding n) = false)
      ∧ (let x := s.screens.get n
         x.state = .holding → f.inbound.length - 1 ≤ x.settings.holdThreshold → (x.cues.map (·.number)).Nodup →
         FirePass s n x.settings (f.inbound.length - 1) x.position (max s.clock e.timer)
           [.holdEnded n .seated x.overrun x.position] t))
    ∧ (∀ (r : Req) (v : FieldSettings), InTurn 0x48#8 r.tag s → r.form = .fits →
      (FieldSettings.valid v = false → Refuses (.fieldSet r n.toNat v) 0x48#8 r.tag .badValue s)
      ∧ (FieldSettings.valid v = true → ∃ t, exec (.fieldSet r n.toNat v) s = .next t
        ∧ t.fields.get n = { f with settings := v, available := free { f with settings := v } }
        ∧ Replied 0x48#8 r.tag .ok (told t) s t
        ∧ OnlyChanges (.requests :: .transmitter :: .field n :: Part.cond (.fieldFull n)) s t))
    ∧ ∀ r : Req, InTurn 0x49#8 r.tag s → r.form = .fits → ∃ t, exec (.fieldStatus r n.toNat) s = .next t
      ∧ Replied 0x49#8 r.tag .ok (told s) s t ∧ OnlyChanges [.requests, .transmitter] s t

/-- FIELD_FULL of a field is decided by its table each time available is worked out and at each FIELD_SET: it rises at 0 available,
and falls at or above the reopen margin. A field whose effective capacity is below its margin stays full. An ADMIT reads the level as
it stands; admissions queued and cars inbound are not affected (R158). -/
def Obligations.FieldFullIsDecidedByItsTable : Prop :=
  (∀ (s : State) (n : Nr),
    let f := s.fields.get n
    let t := decideFull n s
    (t.fields.get n).available = f.free
    ∧ State.level t (.fieldFull n) = (match State.level s (.fieldFull n) with
      | false => decide (f.free = 0)
      | true => decide (f.free < f.settings.reopenMargin))
    ∧ t = (s.setField n { f with available := f.free }).setCond (.fieldFull n) (State.level t (.fieldFull n))
    ∧ (State.level s (.fieldFull n) = true → f.effective < f.settings.reopenMargin → State.level t (.fieldFull n) = true)
    ∧ t.gate = s.gate ∧ (t.fields.get n).inbound = f.inbound)
  ∧ (∀ (s : State) (n : Nr) (r : Req) (v : FieldSettings), InTurn 0x48#8 r.tag s → r.form = .fits →
    FieldSettings.valid v = true →
    ∃ t, exec (.fieldSet r n.toNat v) s = .next t ∧
      let free := Occupancy.free { s.fields.get n with settings := v }
      State.level t (.fieldFull n) = (match State.level s (.fieldFull n) with
        | false => decide (free = 0)
        | true => decide (free < v.reopenMargin))
      ∧ t.gate = s.gate ∧ (t.fields.get n).inbound = (s.fields.get n).inbound)
  ∧ ∀ (s : State) (n k : Nr) (r : Req) (cls : VehicleClass) (people : Nat), InTurn 0x41#8 r.tag s → r.form = .fits →
    1 ≤ people → people ≤ 15 → (s.lane n).settings.direction ≠ .exit → (s.lane n).queue.length < 8 →
    (State.level s (.fieldFull k) = true → Refuses (.admitCar r n.toNat k.toNat cls people false) 0x41#8 r.tag .fieldFull s)
    ∧ (State.level s (.fieldFull k) = false → ∃ t id, exec (.admitCar r n.toNat k.toNat cls people false) s = .next t
      ∧ Replied 0x41#8 r.tag .ok (.admitted id ((s.lane n).queue.length + 1)) s t)

/-! ### Menu and orders (chapters 10 and 11) -/

/-- MENU_LOAD REPLACE leaves exactly the items it carries, APPEND adds them to those of the table, in order of code; MENU_ITEM_SET
replaces price and availability of one; the order of their checks (R164, R165, R166). -/
def Obligations.MenuIsEdited : Prop :=
  ∀ (s : State) (r : Req), r.form = .fits →
    let menu := s.orders.menu
    let rising (items : List MenuItem) : Prop := items.Pairwise fun i j => i.code < j.code
    (∀ items : List MenuItem, InTurn 0x50#8 r.tag s →
      let c := Instr.menuLoadReplace r items.length items
      let right := items.length ≤ 20 ∧ (∀ i ∈ items, MenuItem.valid i = true) ∧ (items.map (·.code)).Nodup
      (¬ right → Refuses c 0x50#8 r.tag .badValue s)
      ∧ (right → s.orders.live ≠ [] → Refuses c 0x50#8 r.tag .wrongState s)
      ∧ (right → s.orders.live = [] → ∃ t, exec c s = .next t ∧ Replied 0x50#8 r.tag .ok (.menuCount items.length) s t
        ∧ t.orders = { s.orders with menu := t.orders.menu } ∧ rising t.orders.menu ∧ (∀ i, i ∈ t.orders.menu ↔ i ∈ items)
        ∧ OnlyChanges [.requests, .transmitter, .orders] s t))
    ∧ (∀ items : List MenuItem, InTurn 0x50#8 r.tag s →
      let c := Instr.menuLoadAppend r items.length items
      let right := 1 ≤ items.length ∧ items.length ≤ 20 ∧ (∀ i ∈ items, MenuItem.valid i = true)
        ∧ (items.map (·.code)).Nodup ∧ ∀ i ∈ items, i.code ∉ menu.map (·.code)
      (¬ right → Refuses c 0x50#8 r.tag .badValue s)
      ∧ (right → s.orders.live ≠ [] → Refuses c 0x50#8 r.tag .wrongState s)
      ∧ (right → s.orders.live = [] → 128 < menu.length + items.length → Refuses c 0x50#8 r.tag .full s)
      ∧ (right → s.orders.live = [] → menu.length + items.length ≤ 128 → rising menu → ∃ t, exec c s = .next t
        ∧ Replied 0x50#8 r.tag .ok (.menuCount (menu.length + items.length)) s t
        ∧ t.orders = { s.orders with menu := t.orders.menu } ∧ rising t.orders.menu
        ∧ (∀ i, i ∈ t.orders.menu ↔ i ∈ menu ∨ i ∈ items) ∧ OnlyChanges [.requests, .transmitter, .orders] s t))
    ∧ (∀ (code price : Nat) (availability : Availability), InTurn 0x51#8 r.tag s →
      let c := Instr.menuItemSet r code price availability
      let right := 1 ≤ code ∧ code ≤ 250 ∧ price ≤ 9999
      (¬ right → Refuses c 0x51#8 r.tag .badValue s)
      ∧ (right → code ∉ menu.map (·.code) → Refuses c 0x51#8 r.tag .notFound s)
      ∧ (right → rising menu → ∀ i ∈ menu, i.code = code → ∃ t, exec c s = .next t
        ∧ (let j : MenuItem := { i with price := price, availability := availability }
           Replied 0x51#8 r.tag .ok (.menuItem j) s t
           ∧ t.orders = { s.orders with menu := menu.map fun k => if k = i then j else k })
        ∧ OnlyChanges [.requests, .transmitter, .orders] s t))

/-- STATION_SET replaces the staff and the limit, and KITCHEN_SATURATED is decided on the new loads: it rises at a load at the
limit, and falls where every load is 60 s below it; the reply tells the stations. ORDERING_SET opens and closes ordering of a
field. ORDER_READ tells an order. A number outside 1-999, or of no live order, is refused by every order request (R167, R168,
R176, R178). Moments are counts of the model's own clock, the model's choice (log 3). -/
def Obligations.StationsOrderingAndReads : Prop :=
  ∀ (s : State) (r : Req), r.form = .fits →
    (∀ (staff : Four Nat) (limit : Nat), InTurn 0x52#8 r.tag s →
      let c := Instr.stationSet r staff limit
      let load (k : Nr) : Nat := (s.orders.backlog.get k + staff.get k - 1) / staff.get k
      (stationsValid staff limit = false → Refuses c 0x52#8 r.tag .badValue s)
      ∧ (stationsValid staff limit = true → ∃ t, exec c s = .next t
        ∧ t.orders = { s.orders with staff := staff, limit := limit }
        ∧ (State.level s .kitchenSaturated = false → (State.level t .kitchenSaturated = true ↔ ∃ k, limit ≤ load k))
        ∧ (State.level s .kitchenSaturated = true → (State.level t .kitchenSaturated = false ↔ ∀ k, load k ≤ limit - 60))
        ∧ Replied 0x52#8 r.tag .ok
            (.stations ⟨staff, s.orders.backlog, .tabulate load, limit, State.level t .kitchenSaturated⟩) s t
        ∧ OnlyChanges (.requests :: .orders :: Part.cond .kitchenSaturated) s t))
    ∧ (∀ (n : Nr) (isOpen : Bool), InTurn 0x53#8 r.tag s → ∃ t, exec (.orderingSet r n.toNat isOpen) s = .next t
      ∧ t.orders = { s.orders with ordering := s.orders.ordering.set n isOpen } ∧ State.level t (.orderingOpen n) = isOpen
      ∧ Replied 0x53#8 r.tag .ok (.ordering isOpen) s t ∧ OnlyChanges (.requests :: .orders :: Part.cond (.orderingOpen n)) s t)
    ∧ (∀ o ∈ s.orders.live, (s.orders.live.map (·.number)).Nodup → 1 ≤ o.number → o.number ≤ 999 → InTurn 0x58#8 r.tag s →
      ∃ t, exec (.orderRead r o.number) s = .next t
        ∧ Replied 0x58#8 r.tag .ok (.order ⟨o.number, o.field, o.post.val, o.side, o.lines, o.total, o.mode, o.state,
            (s.clock - o.placed) / 1000, (s.clock - o.stateEntered) / 1000, o.estimate, min 99 ((o.estimate + 59) / 60), o.window,
            o.owed, o.reminderSent, o.bayEmptyReported, o.work⟩) s t
        ∧ OnlyChanges [.requests, .transmitter] s t)
    ∧ ∀ (c : Instr) (kind : Byte) (number window : Nat) (reason : BoothReason), request? c = some (kind, r) → InTurn kind r.tag s →
      c ∈ [.orderAccept r number, .orderStagePreparing r number, .orderStageReady r number window, .orderCollected r number,
        .orderCancel r number reason, .orderRead r number] → window ≤ 4 →
      (¬ (1 ≤ number ∧ number ≤ 999) → Refuses c kind r.tag .badValue s)
      ∧ (1 ≤ number → number ≤ 999 → number ∉ s.orders.live.map (·.number) → Refuses c kind r.tag .notFound s)

/-- ORDER_ACCEPT and the two stages of ORDER_STAGE move a live order on and owe it a notice, which enters the down queue of its
line where there is room; READY takes its work out of the backlogs, chooses its window and starts its timers, and a chime follows
its notice (R183, R184, R187, R188, R190). Moments are counts of the model's own clock, the model's choice (log 3). -/
def Obligations.OrdersAreStepped : Prop :=
  ∀ (s : State) (r : Req) (o : Order), r.form = .fits → 1 ≤ o.number → o.number ≤ 999 → s.orders.find o.number = some o →
    let room := (s.posts.get o.field).queue.length < 48 ∧ (s.lines.get o.field).state ≠ .off
    let code := match o.mode with
      | .pickup => 0
      | .runner => 1
      | .intermission => 2
    let minutes := min 99 ((o.estimate + 59) / 60)
    let moved (c : Instr) (kind : Byte) (state : OrderState) (status : NoticeStatus) : Prop :=
      ∃ t, exec c s = .next t ∧
        let p : Order := { o with
          state := state, stateEntered := s.clock, acceptance := none, owed := if room then none else some status }
        t.orders = withOrder s.orders p ∧ Replied kind r.tag .ok (.order (orderReadout s p)) s t
        ∧ (t.posts.get o.field).queue = afterNotice s o.field o.post.val
            (.orderStatus o.side o.number status code o.total minutes) o.number s.clock
        ∧ Reports [] s t ∧ OnlyChanges [.requests, .transmitter, .orders, .post o.field] s t
    (InTurn 0x54#8 r.tag s →
      (o.state = .received → moved (.orderAccept r o.number) 0x54#8 .accepted .accepted)
      ∧ (o.state ≠ .received → Refuses (.orderAccept r o.number) 0x54#8 r.tag .wrongState s))
    ∧ (InTurn 0x55#8 r.tag s →
      (o.state = .accepted → moved (.orderStagePreparing r o.number) 0x55#8 .preparing .preparing)
      ∧ (o.state ≠ .accepted → Refuses (.orderStagePreparing r o.number) 0x55#8 r.tag .wrongState s))
    ∧ (InTurn 0x55#8 r.tag s → ∀ window : Nat,
      let c := Instr.orderStageReady r o.number window
      let length (w : Nr) : Nat := (s.orders.windows.get w).length
      let right := window ≤ 4 ∧ (o.state = .accepted ∨ o.state = .preparing)
      (4 < window → Refuses c 0x55#8 r.tag .badValue s)
      ∧ (window ≤ 4 → o.state ≠ .accepted → o.state ≠ .preparing → Refuses c 0x55#8 r.tag .wrongState s)
      ∧ (right → (∀ w : Nr, window = w.toNat ∨ window = 0 → 32 ≤ length w) → Refuses c 0x55#8 r.tag .full s)
      ∧ (∀ w : Nr, right → length w < 32 → window = w.toNat ∨ (window = 0 ∧ ∀ v : Nr, length v < 32 →
          length w < length v ∨ (length w = length v ∧ w.toNat ≤ v.toNat)) →
        ∃ t, exec c s = .next t ∧
          let status : NoticeStatus := if o.reminderSent = true then .reminder else if o.mode = .runner then .onItsWay else .ready
          let p : Order := { o with
            state := .ready, stateEntered := s.clock, acceptance := none, window := some w, reminder := some (s.clock + 600000)
            stale := some (s.clock + 1800000), owed := if room then none else some status }
          let q := s.posts.get o.field
          let notice := afterNotice s o.field o.post.val (.orderStatus o.side o.number status code o.total w.toNat) o.number s.clock
          t.orders = withOrder { s.orders with
              backlog := .tabulate fun k => s.orders.backlog.get k - o.work.get k
              windows := s.orders.windows.set w (s.orders.windows.get w ++ [o.number]) } p
          ∧ Replied 0x55#8 r.tag .ok (.order (orderReadout s p)) s t
          ∧ (t.posts.get o.field).queue = (if room ∧ q.queue.length + 1 < 48 then notice ++ [⟨
              if q.counter < 65535 then q.counter + 1 else 1, o.post.val,
              .chime (match o.side with
                | .left => .left
                | .right => .right) 1, .order o.number, s.clock, .waiting⟩] else notice)))

/-- An order ends by ORDER_COLLECTED, by ORDER_CANCEL, or at the expiry of its acceptance timer: its work leaves the backlogs, it
leaves the table and its window, ORDER_ENDED tells of it, and the one-shot notice of its ending is offered (R180, R181, R185, R186).
The reply of the two requests carries the record as it was removed, the model's choice (log 38). The other timers of a live order:
the reminder marks it and owes the REMINDER notice with its chime; the stale timer and the bay-empty timer make their reports, once
each, and leave the order live (R190, R191, R192). Moments are counts of the model's own clock, the model's choice (log 3). -/
def Obligations.OrdersEndAndTheirTimersExpire : Prop :=
  (∀ (s : State) (o : Order), 1 ≤ o.number → o.number ≤ 999 → s.orders.find o.number = some o →
     let kitchen := o.state = .received ∨ o.state = .accepted ∨ o.state = .preparing
     let table := withoutOrder { s.orders with
       backlog := if kitchen then .tabulate fun k => s.orders.backlog.get k - o.work.get k else s.orders.backlog } o.number
     let ended (reason : EndReason) (booth : Option BoothReason) (notice : Option DownMsg) (clock : Nat) (t : State) : Prop :=
       t.orders = table
       ∧ (Hears .order 2 s → Tells (.orderEnded o.number o.field o.post.val o.side o.mode o.state reason booth) s t)
       ∧ (¬ kitchen → State.level t .kitchenSaturated = State.level s .kitchenSaturated)
       ∧ (t.posts.get o.field).queue = match notice with
         | none => (s.posts.get o.field).queue
         | some msg => afterNotice s o.field o.post.val msg o.number clock
     (∀ r : Req, r.form = .fits → InTurn 0x56#8 r.tag s →
       (o.state ≠ .ready → Refuses (.orderCollected r o.number) 0x56#8 r.tag .wrongState s)
       ∧ (o.state = .ready → ∃ t, exec (.orderCollected r o.number) s = .next t ∧ ended .collected none none s.clock t
         ∧ Replied 0x56#8 r.tag .ok (.order (orderReadout s { o with owed := none })) s t))
     ∧ (∀ (r : Req) (reason : BoothReason), r.form = .fits → InTurn 0x57#8 r.tag s →
       ∃ t, exec (.orderCancel r o.number reason) s = .next t
         ∧ ended .booth (some reason) (some (.orderStatus o.side o.number .cancelled (match reason with
             | .itemOut => 2
             | .kitchenClosed => 3
             | .booth => 4) o.total 0)) s.clock t
         ∧ Replied 0x57#8 r.tag .ok (.order (orderReadout s { o with owed := none })) s t)
     ∧ ∀ d, o.acceptance = some d → ∃ t, exec (.acceptanceTimerExpiry o.number) s = .next t ∧ t.clock = max s.clock d
       ∧ ended .noKitchen none (some (.orderStatus o.side o.number .rejected 7 0 0)) (max s.clock d) t)
  ∧ (∀ (s : State) (o : Order) (d : Nat), s.orders.find o.number = some o →
       let clock := max s.clock d
       let q := s.posts.get o.field
       let room := q.queue.length < 48 ∧ (s.lines.get o.field).state ≠ .off
       (o.reminder = some d → ∃ t, exec (.reminderTimerExpiry o.number) s = .next t ∧ t.clock = clock
         ∧ t.orders = withOrder s.orders { o with
             reminder := none, reminderSent := true, owed := if room then none else some .reminder }
         ∧ (let code := match o.mode with
             | .pickup => 0
             | .runner => 1
             | .intermission => 2
            let window := match o.window with
             | none => 0
             | some w => w.toNat
            let notice := afterNotice s o.field o.post.val (.orderStatus o.side o.number .reminder code o.total window) o.number clock
            (t.posts.get o.field).queue = if room ∧ q.queue.length + 1 < 48 then notice ++ [⟨
               if q.counter < 65535 then q.counter + 1 else 1, o.post.val,
               .chime (match o.side with
                 | .left => .left
                 | .right => .right) 1, .order o.number, clock, .waiting⟩] else notice)
         ∧ OnlyChanges [.clock, .transmitter, .orders, .post o.field] s t)
       ∧ (o.stale = some d → ∃ t, exec (.staleTimerExpiry o.number) s = .next t ∧ t.clock = clock
         ∧ t.orders = withOrder s.orders { o with stale := none }
         ∧ Makes .order [.orderStale o.number o.field o.post.val o.side o.mode o.window 1800] s t
         ∧ OnlyChanges [.clock, .transmitter, .orders] s t)
       ∧ (o.bayEmpty = some d → ∃ t, exec (.bayEmptyTimerExpiry o.number) s = .next t ∧ t.clock = clock
         ∧ t.orders = withOrder s.orders { o with bayEmpty := none, bayEmptyReported := true }
         ∧ Makes .order [.orderBayEmpty o.number o.field o.post.val o.side o.state o.mode] s t
         ∧ OnlyChanges [.clock, .transmitter, .orders] s t))

/-- An ORDER keyed at a bay: the first check that fails rejects it by a one-shot notice with its reason, and nothing else
happens; one that passes is taken under the next free number, with its total, work and estimate by the menu and the backlogs as
they stand, its mode degraded as the rule says, and RECEIVED is owed. A CANCEL ends an order the kitchen has not accepted, and is
told TOO_LATE or NOT_FOUND otherwise; a CALL is reported. A message of an unknown kind, of a length that does not agree with its
kind or line count, of no bay side, or a CALL of no call kind, is discarded and changes nothing; that its toggle stands
acknowledged is ReplyOutcomesReachTheRecords' (R114, R170 to R174, R177, R187). Moments are counts of the model's own
clock, the model's choice (log 3). -/
def Obligations.OrdersArriveFromPosts : Prop :=
  ∀ (s : State) (n : Nr) (post : Fin 97) (side : Side),
    let table := s.orders
    let bay := (s.node n post).bay side
    let sideByte : Byte := match side with
      | .left => 0#8
      | .right => 1#8
    let tellsOnly (msg : DownMsg) (number : Nat) (t : State) : Prop :=
      t.orders = table ∧ (t.posts.get n).queue = afterNotice s n post.val msg number s.clock ∧ Reports [] s t
    (∀ (mode count : Byte) (lines : List Byte), lines.length = 2 * count.toNat →
      upstream n post 0x01#8 (sideByte :: mode :: count :: lines) s
        = orderArrives n post side ⟨mode.toNat, count.toNat, linesOf lines⟩ s)
    ∧ (∀ lo hi : Byte, upstream n post 0x02#8 [sideByte, lo, hi] s = cancelArrives n post side (lo.toNat + 256 * hi.toNat) s)
    ∧ (Makes .line [.postCall n post.val side .help] s (upstream n post 0x03#8 [sideByte, 1#8] s)
      ∧ Makes .line [.postCall n post.val side .service] s (upstream n post 0x03#8 [sideByte, 2#8] s))
    ∧ (∀ (kind : Byte) (body : List Byte),
      (kind ≠ 0x01#8 ∧ kind ≠ 0x02#8 ∧ kind ≠ 0x03#8)
        ∨ (kind = 0x01#8 ∧ body.length ≠ 3 + 2 * (body.getD 2 0x00#8).toNat)
        ∨ (kind = 0x02#8 ∧ body.length ≠ 3) ∨ (kind = 0x03#8 ∧ body.length ≠ 2)
        ∨ (body.getD 0 0x00#8 ≠ 0x00#8 ∧ body.getD 0 0x00#8 ≠ 0x01#8)
        ∨ (kind = 0x03#8 ∧ body.getD 1 0x00#8 ≠ 0x01#8 ∧ body.getD 1 0x00#8 ≠ 0x02#8) →
      upstream n post kind body s = s)
    ∧ (∀ k : Keyed,
      let t := orderArrives n post side k s
      let right := k.mode ≤ 2 ∧ 1 ≤ k.count ∧ k.count ≤ 8 ∧ ∀ l ∈ k.lines, 1 ≤ l.quantity ∧ l.quantity ≤ 9
      let stands := bay.enabled = true ∧ bay.presence = .occupied
      let ofBay := (table.live.filter fun o => decide (o.field = n ∧ o.post = post ∧ o.side = side)).length
      let offered (code : Nat) : Prop := ∃ i, table.item code = some i ∧ i.availability = .available
      let rejected (reason total last : Nat) : Prop := tellsOnly (.orderStatus side 0 .rejected reason total last) 0 t
      (¬ right → rejected 1 0 0)
      ∧ (right → table.ordering.get n = false → rejected 2 0 0)
      ∧ (right → table.ordering.get n = true → ¬ stands → rejected 3 0 0)
      ∧ (right → table.ordering.get n = true → stands → 2 ≤ ofBay → rejected 4 0 0)
      ∧ (right → table.ordering.get n = true → stands → ofBay < 2 →
        (∀ before l after, k.lines = before ++ l :: after → (∀ b ∈ before, offered b.code) → ¬ offered l.code →
          ((∃ i, table.item l.code = some i ∧ i.availability = .soldOut) → rejected 5 l.code 1)
          ∧ ((∀ i, table.item l.code = some i → i.availability ≠ .soldOut) → rejected 5 l.code 0))
        ∧ ((∀ l ∈ k.lines, offered l.code) → 256 ≤ table.live.length → rejected 6 0 0)
        ∧ ((∀ l ∈ k.lines, offered l.code) → table.live.length < 256 → noneDeferred n s → 1 ≤ table.nextNumber →
          table.nextNumber ≤ 999 → ∀ number, IsFirstFree 999 (table.live.map (·.number)) table.nextNumber number →
          let price (l : OrderLine) : Nat := match table.item l.code with
            | none => 0
            | some i => i.price * l.quantity
          let work : Four Nat := .tabulate fun station => (k.lines.map fun l => match table.item l.code with
            | none => 0
            | some i => if i.station = station.toNat then i.prep * l.quantity else 0).sum
          let time (station : Nr) : Nat := if work.get station = 0 then 0
            else (table.backlog.get station + work.get station + table.staff.get station - 1) / table.staff.get station
          let estimate := max (max (time .one) (time .two)) (max (time .three) (time .four))
          let total := (k.lines.map price).sum
          let mode : OrderMode := if k.mode = 1 then (if State.level s .kitchenSaturated = true then .pickup else .runner)
            else if k.mode = 2 then (if (s.screens.get n).releaseHolds = true then .pickup else .intermission) else .pickup
          let room := (s.posts.get n).queue.length < 48 ∧ (s.lines.get n).state ≠ .off
          let o : Order := {
            number := number, field := n, post := post, side := side, lines := k.lines, work := work, total := total, mode := mode
            state := if mode = .intermission then .deferred else .received, placed := s.clock, stateEntered := s.clock
            estimate := estimate, window := none, owed := if room then none else some .received, reminderSent := false
            bayEmptyReported := false, acceptance := if mode = .intermission then none else some (s.clock + 60000)
            reminder := none, stale := none, bayEmpty := none }
          t.orders = { table with
            live := table.live ++ [o], nextNumber := if number < 999 then number + 1 else 1
            backlog := if mode = .intermission then table.backlog
              else .tabulate fun station => table.backlog.get station + work.get station }
          ∧ (t.posts.get n).queue = afterNotice s n post.val (.orderStatus side number .received (match mode with
              | .pickup => 0
              | .runner => 1
              | .intermission => 2) total (min 99 ((estimate + 59) / 60))) number s.clock
          ∧ (mode ≠ .intermission → Hears .order 2 s →
            Tells (.orderNew number n post.val side mode k.lines total estimate work) s t))))
    ∧ ∀ number : Nat,
      let t := cancelArrives n post side number s
      let named (o : Order) : Prop := o.number = number ∧ o.field = n ∧ o.post = post ∧ o.side = side
      ((∀ o ∈ table.live, ¬ named o) → tellsOnly (.orderStatus side number .notFound 0 0 0) number t)
      ∧ ∀ o ∈ table.live, named o → (table.live.map (·.number)).Nodup →
        (o.state = .accepted ∨ o.state = .preparing ∨ o.state = .ready →
          tellsOnly (.orderStatus side number .tooLate 0 0 0) number t)
        ∧ (o.state = .deferred ∨ o.state = .received →
          t.orders = withoutOrder { table with
            backlog := if o.state = .received then .tabulate fun i => table.backlog.get i - o.work.get i else table.backlog } number
          ∧ (Hears .order 2 s → Tells (.orderEnded number n post.val side o.mode o.state .customer none) s t)
          ∧ (t.posts.get n).queue
            = afterNotice s n post.val (.orderStatus side number .cancelled 1 o.total 0) number s.clock)

/-! ### What every step keeps -/

/-- The conditions agree with what they tell of, and the HOLD lines with the shows, after every step. -/
def Obligations.StepsKeepTheConditionsInAgreement : Prop :=
  ∀ s t : State, ConditionsAgree s → step s = .next t → ConditionsAgree t

/-- Every timeline stands after every step. -/
def Obligations.StepsKeepTheTimelines : Prop :=
  ∀ s t : State, TimelinesStand s → step s = .next t → TimelinesStand t

/-- The occupancy of every field stands after every step. -/
def Obligations.StepsKeepTheOccupancy : Prop :=
  ∀ s t : State, OccupancyStands s → step s = .next t → OccupancyStands t

/-- The order table stands after every step. -/
def Obligations.StepsKeepTheOrders : Prop :=
  ∀ s t : State, OrdersStand s → step s = .next t → OrdersStand t

/-- Capacities are kept, and the names of records stay distinct, after every step. -/
def Obligations.StepsKeepCapacitiesAndNames : Prop :=
  (∀ s t : State, CapacitiesKept s → step s = .next t → CapacitiesKept t)
  ∧ ∀ s t : State, RecordsAreDistinct s → CapacitiesKept s → step s = .next t → RecordsAreDistinct t

/-- Everything that every step keeps holds after a power-on reset. -/
def Obligations.ResetStateMeetsTheInvariants : Prop :=
  ConditionsAgree State.reset ∧ TimelinesStand State.reset ∧ OccupancyStands State.reset ∧ OrdersStand State.reset
    ∧ CapacitiesKept State.reset ∧ RecordsAreDistinct State.reset

/-! ### Orders between the show and the posts (sections 1.8, 11.2 and 11.4) -/

/-- Orders follow the show and the posts. A frame that meets the release condition, and SHOW_STOP, release every deferred order of
the field in order of placement: RECEIVED, its work in the backlogs, its acceptance timer started, ORDER_NEW, and the notice RELEASED
owed and offered; a frame that does not meet it releases none (R26, R27, R182, R192). Owed notices are offered in order of
placement, each with its chime where its status has one, until one is refused: those of a post's bays when it becomes PRESENT, and
those of the line's PRESENT posts when a place frees (R188, R190). A dropped notice that is still an order's latest status, and
beside which none is owed, is owed again, and offered at once where the post is PRESENT; any other does nothing (R189). Moments are
counts of the model's own clock, the model's choice (log 3). -/
def Obligations.OrdersFollowShowsAndPosts : Prop :=
  ∀ (s : State) (n : Nr), (s.orders.live.map (·.number)).Nodup →
    let l := s.lines.get n
    let queue := (s.posts.get n).queue
    let told (e : DownEntry) : Nat × DownMsg × DownSource × DownMark := (e.address, e.msg, e.source, e.mark)
    let entry (r : Order) (msg : DownMsg) : Nat × DownMsg × DownSource × DownMark := (r.post.val, msg, .order r.number, .waiting)
    let deferred := s.orders.live.filter fun r => decide (r.field = n ∧ r.state = .deferred)
    let entered := deferred.take (if l.state = .off then 0 else 48 - queue.length)
    let releases (t : State) : Prop :=
      t.orders = { s.orders with
        live := s.orders.live.map fun r => if r ∈ deferred then { r with
            state := .received, stateEntered := s.clock, acceptance := some (s.clock + 60000)
            owed := if r ∈ entered then none else some .released } else r
        backlog := .tabulate fun k => s.orders.backlog.get k + (deferred.map fun r => r.work.get k).sum }
      ∧ (t.posts.get n).queue.map told = queue.map told ++ (entered.map fun r =>
          entry r (.orderStatus r.side r.number .released (OrderMode.code r.mode) r.total (min 99 ((r.estimate + 59) / 60))))
      ∧ (Hears .order (2 * deferred.length + 4) s → ∀ r ∈ deferred,
          Tells (.orderNew r.number n r.post.val r.side r.mode r.lines r.total r.estimate r.work) s t)
    let entriesOf (r : Order) (status : NoticeStatus) : List (Nat × DownMsg × DownSource × DownMark) :=
      entry r (r.notice status) :: if status.atWindow = true then [entry r (.chime (Side.down r.side) 1)] else []
    let offered (owing : List Order) (before : List DownEntry) (t : State) : Prop :=
      let entries := owing.flatMap fun r => (r.owed.map (entriesOf r)).getD []
      let clears (list : List Order) : Prop := t.orders.live.map (fun r => (r.number, r.owed))
        = s.orders.live.map fun r => (r.number, if r ∈ list then none else r.owed)
      (l.state ≠ .off → before.length + entries.length ≤ 48 →
        (t.posts.get n).queue.map told = before.map told ++ entries ∧ clears owing)
      ∧ (∀ r rest, l.state ≠ .off → before.length = 47 → owing = r :: rest →
        (t.posts.get n).queue.map told = before.map told ++ entries.take 1 ∧ clears [r])
      ∧ (l.state = .off ∨ 48 ≤ before.length → (t.posts.get n).queue = before ∧ clears [])
    let owes (r : Order) : Prop := r.field = n ∧ (s.node n r.post).state = .present ∧ r.owed ≠ none
    let latest (r : Order) : NoticeStatus := match r.state with
      | .deferred => .received
      | .received => if r.mode = .intermission then .released else .received
      | .accepted => .accepted
      | .preparing => .preparing
      | .ready => if r.reminderSent = true then .reminder else if r.mode = .runner then .onItsWay else .ready
    let x := s.screens.get n
    (x.state = .running → x.filter = ⟨.waitHigh, 1⟩ → x.position + 1 < 16777215 → noCueDue (x.position + 1) x.cues →
      let waits (c : Cue) : Prop := c.fired = false ∧ ∃ chime, c.action = .intermissionBegin chime
      let holds := ∀ before c after, x.cues = before ++ c :: after → waits c → (∀ d ∈ before, ¬ waits d) →
        c.position ≤ x.position + 1 + x.settings.orderLead * x.settings.frameRate
      ∃ t, exec (.frameCounted n [true]) s = .next t
        ∧ (holds → releases t) ∧ (¬ holds → t.orders = s.orders ∧ t.posts = s.posts))
    ∧ (∀ r : Req, InTurn 0x17#8 r.tag s → r.form = .fits → x.state = .armed ∨ x.state = .running ∨ x.state = .holding →
      ∃ t, exec (.showStop r n.toNat) s = .next t ∧ releases t)
    ∧ (∀ (bits : List Bool) (poll : Poll), l.state = .running → l.wire = .exchange → l.poll = some poll →
      let a := poll.address
      let v := s.node n a
      (∀ status : Byte, a ≠ 0 → windowOutcome a.val bits = (.good, withCrc [byteOf a.val, status]) → status.getLsbD 4 = false →
        (v.state = .absent ∧ poll.discovery = true) ∨ v.state = .silent →
        ∃ t, exec (.replyWindowEnd n bits) s = .next t
          ∧ offered (s.orders.live.filter fun r => decide (r.field = n ∧ r.post = a ∧ r.owed ≠ none)) queue t)
      ∧ (∀ (e : DownEntry) (r : Order) (status : NoticeStatus) (detail total last : Nat), v.state = .present → v.errors < 2 →
        (windowOutcome a.val bits).1 ≠ .good → e ∈ queue → e.address = a.val → e.mark = .outstanding 3 2 →
        (∀ q ∈ queue, q.address = a.val → q.mark ≠ .waiting → q = e) → (queue.map (·.number)).Nodup → (∀ q ∈ s.orders.live, ¬ owes q) →
        r ∈ s.orders.live → r.field = n → r.post = a → e.msg = .orderStatus r.side r.number status detail total last →
        latest r = status → r.owed = none →
        let without := queue.filter fun q => decide (q.number ≠ e.number)
        without.length + 2 ≤ 48 →
        ∃ t, exec (.replyWindowEnd n bits) s = .next t ∧ t.orders = s.orders
          ∧ (t.posts.get n).queue.map told = without.map told ++ entriesOf r status))
    ∧ (∀ e ∈ queue, e.mark = .waiting → e.address ≠ 255 → (∀ a : Fin 97, a.val = e.address → (s.node n a).state ≠ .present) →
      (queue.map (·.number)).Nodup →
      let without := queue.filter fun q => decide (q.number ≠ e.number)
      let named (r : Order) (side : Side) (number : Nat) : Prop :=
        r.number = number ∧ r.field = n ∧ r.post.val = e.address ∧ r.side = side
      ∃ t, exec (.downMessageAgeLimit n e.number) s = .next t
        ∧ ((∀ side number status detail total last, e.msg = .orderStatus side number status detail total last →
            status.oneShot = true ∨ ∀ r ∈ s.orders.live, named r side number → r.owed ≠ none ∨ latest r ≠ status) →
          offered (s.orders.live.filter fun r => decide (owes r)) without t)
        ∧ (∀ (r : Order) (status : NoticeStatus) (detail total last : Nat), (∀ q ∈ s.orders.live, ¬ owes q) → r ∈ s.orders.live →
          e.msg = .orderStatus r.side r.number status detail total last → named r r.side r.number → latest r = status →
          r.owed = none → t.orders = withOrder s.orders { r with owed := some status } ∧ (t.posts.get n).queue = without))
end

