-- ==== Sys2Proof/Laws/State.lean ====
section
/-! SUPPORT. One lemma for each field under each update of the state, true by definition, so that no proof unfolds a record
update; and the laws of the stores of four and of six. -/

namespace Sys2Proof

/-! ### Stores of four and of six -/

@[simp] theorem Four.get_set_same {α : Type} (v : Four α) (n : Nr) (x : α) : (v.set n x).get n = x := by cases n <;> rfl

theorem Four.get_set_ne {α : Type} (v : Four α) {n k : Nr} (x : α) (h : k ≠ n) : (v.set n x).get k = v.get k := by
  cases n <;> cases k <;> first | rfl | exact absurd rfl h

theorem Four.get_set {α : Type} (v : Four α) (n k : Nr) (x : α) : (v.set n x).get k = if k = n then x else v.get k := by
  cases n <;> cases k <;> rfl

@[simp] theorem Four.get_all {α : Type} (x : α) (n : Nr) : (Four.all x).get n = x := by cases n <;> rfl

@[simp] theorem Four.get_tabulate {α : Type} (f : Nr → α) (n : Nr) : (Four.tabulate f).get n = f n := by cases n <;> rfl

@[simp] theorem Four.get_map {α β : Type} (f : α → β) (v : Four α) (n : Nr) : (v.map f).get n = f (v.get n) := by cases n <;> rfl

theorem Four.ext_get {α : Type} {v w : Four α} (h : ∀ n, v.get n = w.get n) : v = w := by
  have h1 := h .one; have h2 := h .two; have h3 := h .three; have h4 := h .four
  cases v; cases w; simp_all [Four.get]

@[simp] theorem Six.get_set_same {α : Type} (v : Six α) (l : BoothLine) (x : α) : (v.set l x).get l = x := by cases l <;> rfl

theorem Six.get_set {α : Type} (v : Six α) (l k : BoothLine) (x : α) : (v.set l x).get k = if k = l then x else v.get k := by
  cases l <;> cases k <;> rfl

@[simp] theorem Six.get_map {α β : Type} (f : α → β) (v : Six α) (l : BoothLine) : (v.map f).get l = f (v.get l) := by
  cases l <;> rfl

@[simp] theorem Six.get_zipWith {α β γ : Type} (f : α → β → γ) (v : Six α) (w : Six β) (l : BoothLine) :
    (v.zipWith f w).get l = f (v.get l) (w.get l) := by cases l <;> rfl

/-- Every number is among the four. -/
theorem Nr.mem_all (n : Nr) : n ∈ Nr.all := by cases n <;> decide

/-- A number named by its value. -/
@[simp] theorem Nr.ofNat?_toNat (n : Nr) : Nr.ofNat? n.toNat = some n := by cases n <;> rfl

theorem Nr.toNat_inj {n k : Nr} (h : n.toNat = k.toNat) : n = k := by cases n <;> cases k <;> first | rfl | cases h

theorem Nr.ofNat?_eq_some {v : Nat} {n : Nr} (h : Nr.ofNat? v = some n) : v = n.toNat := by
  unfold Nr.ofNat? at h; split at h <;> simp at h <;> subst h <;> rfl

namespace Machine

/-! ### `State.setScreen` -/

@[simp] theorem State.setScreen_clock (s : State) (n : Nr) (x : Screen) : (s.setScreen n x).clock = s.clock := rfl
@[simp] theorem State.setScreen_freeCount (s : State) (n : Nr) (x : Screen) : (s.setScreen n x).freeCount = s.freeCount := rfl
@[simp] theorem State.setScreen_pending (s : State) (n : Nr) (x : Screen) : (s.setScreen n x).pending = s.pending := rfl
@[simp] theorem State.setScreen_link (s : State) (n : Nr) (x : Screen) : (s.setScreen n x).link = s.link := rfl
@[simp] theorem State.setScreen_screens (s : State) (n : Nr) (x : Screen) : (s.setScreen n x).screens = s.screens.set n x := rfl
@[simp] theorem State.setScreen_outputs (s : State) (n : Nr) (x : Screen) : (s.setScreen n x).outputs = s.outputs := rfl
@[simp] theorem State.setScreen_intake (s : State) (n : Nr) (x : Screen) : (s.setScreen n x).intake = s.intake := rfl
@[simp] theorem State.setScreen_mixers (s : State) (n : Nr) (x : Screen) : (s.setScreen n x).mixers = s.mixers := rfl
@[simp] theorem State.setScreen_delays (s : State) (n : Nr) (x : Screen) : (s.setScreen n x).delays = s.delays := rfl
@[simp] theorem State.setScreen_announce (s : State) (n : Nr) (x : Screen) : (s.setScreen n x).announce = s.announce := rfl
@[simp] theorem State.setScreen_lines (s : State) (n : Nr) (x : Screen) : (s.setScreen n x).lines = s.lines := rfl
@[simp] theorem State.setScreen_posts (s : State) (n : Nr) (x : Screen) : (s.setScreen n x).posts = s.posts := rfl
@[simp] theorem State.setScreen_surveys (s : State) (n : Nr) (x : Screen) : (s.setScreen n x).surveys = s.surveys := rfl
@[simp] theorem State.setScreen_gate (s : State) (n : Nr) (x : Screen) : (s.setScreen n x).gate = s.gate := rfl
@[simp] theorem State.setScreen_fields (s : State) (n : Nr) (x : Screen) : (s.setScreen n x).fields = s.fields := rfl
@[simp] theorem State.setScreen_orders (s : State) (n : Nr) (x : Screen) : (s.setScreen n x).orders = s.orders := rfl

/-! ### `State.setOutput` -/

@[simp] theorem State.setOutput_clock (s : State) (n : Nr) (x : OutputUnit) : (s.setOutput n x).clock = s.clock := rfl
@[simp] theorem State.setOutput_freeCount (s : State) (n : Nr) (x : OutputUnit) : (s.setOutput n x).freeCount = s.freeCount := rfl
@[simp] theorem State.setOutput_pending (s : State) (n : Nr) (x : OutputUnit) : (s.setOutput n x).pending = s.pending := rfl
@[simp] theorem State.setOutput_link (s : State) (n : Nr) (x : OutputUnit) : (s.setOutput n x).link = s.link := rfl
@[simp] theorem State.setOutput_screens (s : State) (n : Nr) (x : OutputUnit) : (s.setOutput n x).screens = s.screens := rfl
@[simp] theorem State.setOutput_outputs (s : State) (n : Nr) (x : OutputUnit) : (s.setOutput n x).outputs = s.outputs.set n x := rfl
@[simp] theorem State.setOutput_intake (s : State) (n : Nr) (x : OutputUnit) : (s.setOutput n x).intake = s.intake := rfl
@[simp] theorem State.setOutput_mixers (s : State) (n : Nr) (x : OutputUnit) : (s.setOutput n x).mixers = s.mixers := rfl
@[simp] theorem State.setOutput_delays (s : State) (n : Nr) (x : OutputUnit) : (s.setOutput n x).delays = s.delays := rfl
@[simp] theorem State.setOutput_announce (s : State) (n : Nr) (x : OutputUnit) : (s.setOutput n x).announce = s.announce := rfl
@[simp] theorem State.setOutput_lines (s : State) (n : Nr) (x : OutputUnit) : (s.setOutput n x).lines = s.lines := rfl
@[simp] theorem State.setOutput_posts (s : State) (n : Nr) (x : OutputUnit) : (s.setOutput n x).posts = s.posts := rfl
@[simp] theorem State.setOutput_surveys (s : State) (n : Nr) (x : OutputUnit) : (s.setOutput n x).surveys = s.surveys := rfl
@[simp] theorem State.setOutput_gate (s : State) (n : Nr) (x : OutputUnit) : (s.setOutput n x).gate = s.gate := rfl
@[simp] theorem State.setOutput_fields (s : State) (n : Nr) (x : OutputUnit) : (s.setOutput n x).fields = s.fields := rfl
@[simp] theorem State.setOutput_orders (s : State) (n : Nr) (x : OutputUnit) : (s.setOutput n x).orders = s.orders := rfl

/-! ### `State.setMixer` -/

@[simp] theorem State.setMixer_clock (s : State) (n : Nr) (x : Mixer) : (s.setMixer n x).clock = s.clock := rfl
@[simp] theorem State.setMixer_freeCount (s : State) (n : Nr) (x : Mixer) : (s.setMixer n x).freeCount = s.freeCount := rfl
@[simp] theorem State.setMixer_pending (s : State) (n : Nr) (x : Mixer) : (s.setMixer n x).pending = s.pending := rfl
@[simp] theorem State.setMixer_link (s : State) (n : Nr) (x : Mixer) : (s.setMixer n x).link = s.link := rfl
@[simp] theorem State.setMixer_screens (s : State) (n : Nr) (x : Mixer) : (s.setMixer n x).screens = s.screens := rfl
@[simp] theorem State.setMixer_outputs (s : State) (n : Nr) (x : Mixer) : (s.setMixer n x).outputs = s.outputs := rfl
@[simp] theorem State.setMixer_intake (s : State) (n : Nr) (x : Mixer) : (s.setMixer n x).intake = s.intake := rfl
@[simp] theorem State.setMixer_mixers (s : State) (n : Nr) (x : Mixer) : (s.setMixer n x).mixers = s.mixers.set n x := rfl
@[simp] theorem State.setMixer_delays (s : State) (n : Nr) (x : Mixer) : (s.setMixer n x).delays = s.delays := rfl
@[simp] theorem State.setMixer_announce (s : State) (n : Nr) (x : Mixer) : (s.setMixer n x).announce = s.announce := rfl
@[simp] theorem State.setMixer_lines (s : State) (n : Nr) (x : Mixer) : (s.setMixer n x).lines = s.lines := rfl
@[simp] theorem State.setMixer_posts (s : State) (n : Nr) (x : Mixer) : (s.setMixer n x).posts = s.posts := rfl
@[simp] theorem State.setMixer_surveys (s : State) (n : Nr) (x : Mixer) : (s.setMixer n x).surveys = s.surveys := rfl
@[simp] theorem State.setMixer_gate (s : State) (n : Nr) (x : Mixer) : (s.setMixer n x).gate = s.gate := rfl
@[simp] theorem State.setMixer_fields (s : State) (n : Nr) (x : Mixer) : (s.setMixer n x).fields = s.fields := rfl
@[simp] theorem State.setMixer_orders (s : State) (n : Nr) (x : Mixer) : (s.setMixer n x).orders = s.orders := rfl

/-! ### `State.setDelay` -/

@[simp] theorem State.setDelay_clock (s : State) (n : Nr) (x : DelayLine) : (s.setDelay n x).clock = s.clock := rfl
@[simp] theorem State.setDelay_freeCount (s : State) (n : Nr) (x : DelayLine) : (s.setDelay n x).freeCount = s.freeCount := rfl
@[simp] theorem State.setDelay_pending (s : State) (n : Nr) (x : DelayLine) : (s.setDelay n x).pending = s.pending := rfl
@[simp] theorem State.setDelay_link (s : State) (n : Nr) (x : DelayLine) : (s.setDelay n x).link = s.link := rfl
@[simp] theorem State.setDelay_screens (s : State) (n : Nr) (x : DelayLine) : (s.setDelay n x).screens = s.screens := rfl
@[simp] theorem State.setDelay_outputs (s : State) (n : Nr) (x : DelayLine) : (s.setDelay n x).outputs = s.outputs := rfl
@[simp] theorem State.setDelay_intake (s : State) (n : Nr) (x : DelayLine) : (s.setDelay n x).intake = s.intake := rfl
@[simp] theorem State.setDelay_mixers (s : State) (n : Nr) (x : DelayLine) : (s.setDelay n x).mixers = s.mixers := rfl
@[simp] theorem State.setDelay_delays (s : State) (n : Nr) (x : DelayLine) : (s.setDelay n x).delays = s.delays.set n x := rfl
@[simp] theorem State.setDelay_announce (s : State) (n : Nr) (x : DelayLine) : (s.setDelay n x).announce = s.announce := rfl
@[simp] theorem State.setDelay_lines (s : State) (n : Nr) (x : DelayLine) : (s.setDelay n x).lines = s.lines := rfl
@[simp] theorem State.setDelay_posts (s : State) (n : Nr) (x : DelayLine) : (s.setDelay n x).posts = s.posts := rfl
@[simp] theorem State.setDelay_surveys (s : State) (n : Nr) (x : DelayLine) : (s.setDelay n x).surveys = s.surveys := rfl
@[simp] theorem State.setDelay_gate (s : State) (n : Nr) (x : DelayLine) : (s.setDelay n x).gate = s.gate := rfl
@[simp] theorem State.setDelay_fields (s : State) (n : Nr) (x : DelayLine) : (s.setDelay n x).fields = s.fields := rfl
@[simp] theorem State.setDelay_orders (s : State) (n : Nr) (x : DelayLine) : (s.setDelay n x).orders = s.orders := rfl

/-! ### `State.setLine` -/

@[simp] theorem State.setLine_clock (s : State) (n : Nr) (x : LineCtl) : (s.setLine n x).clock = s.clock := rfl
@[simp] theorem State.setLine_freeCount (s : State) (n : Nr) (x : LineCtl) : (s.setLine n x).freeCount = s.freeCount := rfl
@[simp] theorem State.setLine_pending (s : State) (n : Nr) (x : LineCtl) : (s.setLine n x).pending = s.pending := rfl
@[simp] theorem State.setLine_link (s : State) (n : Nr) (x : LineCtl) : (s.setLine n x).link = s.link := rfl
@[simp] theorem State.setLine_screens (s : State) (n : Nr) (x : LineCtl) : (s.setLine n x).screens = s.screens := rfl
@[simp] theorem State.setLine_outputs (s : State) (n : Nr) (x : LineCtl) : (s.setLine n x).outputs = s.outputs := rfl
@[simp] theorem State.setLine_intake (s : State) (n : Nr) (x : LineCtl) : (s.setLine n x).intake = s.intake := rfl
@[simp] theorem State.setLine_mixers (s : State) (n : Nr) (x : LineCtl) : (s.setLine n x).mixers = s.mixers := rfl
@[simp] theorem State.setLine_delays (s : State) (n : Nr) (x : LineCtl) : (s.setLine n x).delays = s.delays := rfl
@[simp] theorem State.setLine_announce (s : State) (n : Nr) (x : LineCtl) : (s.setLine n x).announce = s.announce := rfl
@[simp] theorem State.setLine_lines (s : State) (n : Nr) (x : LineCtl) : (s.setLine n x).lines = s.lines.set n x := rfl
@[simp] theorem State.setLine_posts (s : State) (n : Nr) (x : LineCtl) : (s.setLine n x).posts = s.posts := rfl
@[simp] theorem State.setLine_surveys (s : State) (n : Nr) (x : LineCtl) : (s.setLine n x).surveys = s.surveys := rfl
@[simp] theorem State.setLine_gate (s : State) (n : Nr) (x : LineCtl) : (s.setLine n x).gate = s.gate := rfl
@[simp] theorem State.setLine_fields (s : State) (n : Nr) (x : LineCtl) : (s.setLine n x).fields = s.fields := rfl
@[simp] theorem State.setLine_orders (s : State) (n : Nr) (x : LineCtl) : (s.setLine n x).orders = s.orders := rfl

/-! ### `State.setPost` -/

@[simp] theorem State.setPost_clock (s : State) (n : Nr) (x : PostTable) : (s.setPost n x).clock = s.clock := rfl
@[simp] theorem State.setPost_freeCount (s : State) (n : Nr) (x : PostTable) : (s.setPost n x).freeCount = s.freeCount := rfl
@[simp] theorem State.setPost_pending (s : State) (n : Nr) (x : PostTable) : (s.setPost n x).pending = s.pending := rfl
@[simp] theorem State.setPost_link (s : State) (n : Nr) (x : PostTable) : (s.setPost n x).link = s.link := rfl
@[simp] theorem State.setPost_screens (s : State) (n : Nr) (x : PostTable) : (s.setPost n x).screens = s.screens := rfl
@[simp] theorem State.setPost_outputs (s : State) (n : Nr) (x : PostTable) : (s.setPost n x).outputs = s.outputs := rfl
@[simp] theorem State.setPost_intake (s : State) (n : Nr) (x : PostTable) : (s.setPost n x).intake = s.intake := rfl
@[simp] theorem State.setPost_mixers (s : State) (n : Nr) (x : PostTable) : (s.setPost n x).mixers = s.mixers := rfl
@[simp] theorem State.setPost_delays (s : State) (n : Nr) (x : PostTable) : (s.setPost n x).delays = s.delays := rfl
@[simp] theorem State.setPost_announce (s : State) (n : Nr) (x : PostTable) : (s.setPost n x).announce = s.announce := rfl
@[simp] theorem State.setPost_lines (s : State) (n : Nr) (x : PostTable) : (s.setPost n x).lines = s.lines := rfl
@[simp] theorem State.setPost_posts (s : State) (n : Nr) (x : PostTable) : (s.setPost n x).posts = s.posts.set n x := rfl
@[simp] theorem State.setPost_surveys (s : State) (n : Nr) (x : PostTable) : (s.setPost n x).surveys = s.surveys := rfl
@[simp] theorem State.setPost_gate (s : State) (n : Nr) (x : PostTable) : (s.setPost n x).gate = s.gate := rfl
@[simp] theorem State.setPost_fields (s : State) (n : Nr) (x : PostTable) : (s.setPost n x).fields = s.fields := rfl
@[simp] theorem State.setPost_orders (s : State) (n : Nr) (x : PostTable) : (s.setPost n x).orders = s.orders := rfl

/-! ### `State.setSurvey` -/

@[simp] theorem State.setSurvey_clock (s : State) (n : Nr) (x : SurveyUnit) : (s.setSurvey n x).clock = s.clock := rfl
@[simp] theorem State.setSurvey_freeCount (s : State) (n : Nr) (x : SurveyUnit) : (s.setSurvey n x).freeCount = s.freeCount := rfl
@[simp] theorem State.setSurvey_pending (s : State) (n : Nr) (x : SurveyUnit) : (s.setSurvey n x).pending = s.pending := rfl
@[simp] theorem State.setSurvey_link (s : State) (n : Nr) (x : SurveyUnit) : (s.setSurvey n x).link = s.link := rfl
@[simp] theorem State.setSurvey_screens (s : State) (n : Nr) (x : SurveyUnit) : (s.setSurvey n x).screens = s.screens := rfl
@[simp] theorem State.setSurvey_outputs (s : State) (n : Nr) (x : SurveyUnit) : (s.setSurvey n x).outputs = s.outputs := rfl
@[simp] theorem State.setSurvey_intake (s : State) (n : Nr) (x : SurveyUnit) : (s.setSurvey n x).intake = s.intake := rfl
@[simp] theorem State.setSurvey_mixers (s : State) (n : Nr) (x : SurveyUnit) : (s.setSurvey n x).mixers = s.mixers := rfl
@[simp] theorem State.setSurvey_delays (s : State) (n : Nr) (x : SurveyUnit) : (s.setSurvey n x).delays = s.delays := rfl
@[simp] theorem State.setSurvey_announce (s : State) (n : Nr) (x : SurveyUnit) : (s.setSurvey n x).announce = s.announce := rfl
@[simp] theorem State.setSurvey_lines (s : State) (n : Nr) (x : SurveyUnit) : (s.setSurvey n x).lines = s.lines := rfl
@[simp] theorem State.setSurvey_posts (s : State) (n : Nr) (x : SurveyUnit) : (s.setSurvey n x).posts = s.posts := rfl
@[simp] theorem State.setSurvey_surveys (s : State) (n : Nr) (x : SurveyUnit) : (s.setSurvey n x).surveys = s.surveys.set n x := rfl
@[simp] theorem State.setSurvey_gate (s : State) (n : Nr) (x : SurveyUnit) : (s.setSurvey n x).gate = s.gate := rfl
@[simp] theorem State.setSurvey_fields (s : State) (n : Nr) (x : SurveyUnit) : (s.setSurvey n x).fields = s.fields := rfl
@[simp] theorem State.setSurvey_orders (s : State) (n : Nr) (x : SurveyUnit) : (s.setSurvey n x).orders = s.orders := rfl

/-! ### `State.setField` -/

@[simp] theorem State.setField_clock (s : State) (n : Nr) (x : Occupancy) : (s.setField n x).clock = s.clock := rfl
@[simp] theorem State.setField_freeCount (s : State) (n : Nr) (x : Occupancy) : (s.setField n x).freeCount = s.freeCount := rfl
@[simp] theorem State.setField_pending (s : State) (n : Nr) (x : Occupancy) : (s.setField n x).pending = s.pending := rfl
@[simp] theorem State.setField_link (s : State) (n : Nr) (x : Occupancy) : (s.setField n x).link = s.link := rfl
@[simp] theorem State.setField_screens (s : State) (n : Nr) (x : Occupancy) : (s.setField n x).screens = s.screens := rfl
@[simp] theorem State.setField_outputs (s : State) (n : Nr) (x : Occupancy) : (s.setField n x).outputs = s.outputs := rfl
@[simp] theorem State.setField_intake (s : State) (n : Nr) (x : Occupancy) : (s.setField n x).intake = s.intake := rfl
@[simp] theorem State.setField_mixers (s : State) (n : Nr) (x : Occupancy) : (s.setField n x).mixers = s.mixers := rfl
@[simp] theorem State.setField_delays (s : State) (n : Nr) (x : Occupancy) : (s.setField n x).delays = s.delays := rfl
@[simp] theorem State.setField_announce (s : State) (n : Nr) (x : Occupancy) : (s.setField n x).announce = s.announce := rfl
@[simp] theorem State.setField_lines (s : State) (n : Nr) (x : Occupancy) : (s.setField n x).lines = s.lines := rfl
@[simp] theorem State.setField_posts (s : State) (n : Nr) (x : Occupancy) : (s.setField n x).posts = s.posts := rfl
@[simp] theorem State.setField_surveys (s : State) (n : Nr) (x : Occupancy) : (s.setField n x).surveys = s.surveys := rfl
@[simp] theorem State.setField_gate (s : State) (n : Nr) (x : Occupancy) : (s.setField n x).gate = s.gate := rfl
@[simp] theorem State.setField_fields (s : State) (n : Nr) (x : Occupancy) : (s.setField n x).fields = s.fields.set n x := rfl
@[simp] theorem State.setField_orders (s : State) (n : Nr) (x : Occupancy) : (s.setField n x).orders = s.orders := rfl

/-! ### `State.setLane` -/

@[simp] theorem State.setLane_clock (s : State) (n : Nr) (x : Lane) : (s.setLane n x).clock = s.clock := rfl
@[simp] theorem State.setLane_freeCount (s : State) (n : Nr) (x : Lane) : (s.setLane n x).freeCount = s.freeCount := rfl
@[simp] theorem State.setLane_pending (s : State) (n : Nr) (x : Lane) : (s.setLane n x).pending = s.pending := rfl
@[simp] theorem State.setLane_link (s : State) (n : Nr) (x : Lane) : (s.setLane n x).link = s.link := rfl
@[simp] theorem State.setLane_screens (s : State) (n : Nr) (x : Lane) : (s.setLane n x).screens = s.screens := rfl
@[simp] theorem State.setLane_outputs (s : State) (n : Nr) (x : Lane) : (s.setLane n x).outputs = s.outputs := rfl
@[simp] theorem State.setLane_intake (s : State) (n : Nr) (x : Lane) : (s.setLane n x).intake = s.intake := rfl
@[simp] theorem State.setLane_mixers (s : State) (n : Nr) (x : Lane) : (s.setLane n x).mixers = s.mixers := rfl
@[simp] theorem State.setLane_delays (s : State) (n : Nr) (x : Lane) : (s.setLane n x).delays = s.delays := rfl
@[simp] theorem State.setLane_announce (s : State) (n : Nr) (x : Lane) : (s.setLane n x).announce = s.announce := rfl
@[simp] theorem State.setLane_lines (s : State) (n : Nr) (x : Lane) : (s.setLane n x).lines = s.lines := rfl
@[simp] theorem State.setLane_posts (s : State) (n : Nr) (x : Lane) : (s.setLane n x).posts = s.posts := rfl
@[simp] theorem State.setLane_surveys (s : State) (n : Nr) (x : Lane) : (s.setLane n x).surveys = s.surveys := rfl
@[simp] theorem State.setLane_gate (s : State) (n : Nr) (x : Lane) : (s.setLane n x).gate = { s.gate with lanes := s.gate.lanes.set n x } := rfl
@[simp] theorem State.setLane_fields (s : State) (n : Nr) (x : Lane) : (s.setLane n x).fields = s.fields := rfl
@[simp] theorem State.setLane_orders (s : State) (n : Nr) (x : Lane) : (s.setLane n x).orders = s.orders := rfl

/-! ### `State.setAnnounce` -/

@[simp] theorem State.setAnnounce_clock (s : State) (x : AnnounceUnit) : (s.setAnnounce x).clock = s.clock := rfl
@[simp] theorem State.setAnnounce_freeCount (s : State) (x : AnnounceUnit) : (s.setAnnounce x).freeCount = s.freeCount := rfl
@[simp] theorem State.setAnnounce_pending (s : State) (x : AnnounceUnit) : (s.setAnnounce x).pending = s.pending := rfl
@[simp] theorem State.setAnnounce_link (s : State) (x : AnnounceUnit) : (s.setAnnounce x).link = s.link := rfl
@[simp] theorem State.setAnnounce_screens (s : State) (x : AnnounceUnit) : (s.setAnnounce x).screens = s.screens := rfl
@[simp] theorem State.setAnnounce_outputs (s : State) (x : AnnounceUnit) : (s.setAnnounce x).outputs = s.outputs := rfl
@[simp] theorem State.setAnnounce_intake (s : State) (x : AnnounceUnit) : (s.setAnnounce x).intake = s.intake := rfl
@[simp] theorem State.setAnnounce_mixers (s : State) (x : AnnounceUnit) : (s.setAnnounce x).mixers = s.mixers := rfl
@[simp] theorem State.setAnnounce_delays (s : State) (x : AnnounceUnit) : (s.setAnnounce x).delays = s.delays := rfl
@[simp] theorem State.setAnnounce_announce (s : State) (x : AnnounceUnit) : (s.setAnnounce x).announce = x := rfl
@[simp] theorem State.setAnnounce_lines (s : State) (x : AnnounceUnit) : (s.setAnnounce x).lines = s.lines := rfl
@[simp] theorem State.setAnnounce_posts (s : State) (x : AnnounceUnit) : (s.setAnnounce x).posts = s.posts := rfl
@[simp] theorem State.setAnnounce_surveys (s : State) (x : AnnounceUnit) : (s.setAnnounce x).surveys = s.surveys := rfl
@[simp] theorem State.setAnnounce_gate (s : State) (x : AnnounceUnit) : (s.setAnnounce x).gate = s.gate := rfl
@[simp] theorem State.setAnnounce_fields (s : State) (x : AnnounceUnit) : (s.setAnnounce x).fields = s.fields := rfl
@[simp] theorem State.setAnnounce_orders (s : State) (x : AnnounceUnit) : (s.setAnnounce x).orders = s.orders := rfl

/-! ### `State.setOrders` -/

@[simp] theorem State.setOrders_clock (s : State) (x : OrderTable) : (s.setOrders x).clock = s.clock := rfl
@[simp] theorem State.setOrders_freeCount (s : State) (x : OrderTable) : (s.setOrders x).freeCount = s.freeCount := rfl
@[simp] theorem State.setOrders_pending (s : State) (x : OrderTable) : (s.setOrders x).pending = s.pending := rfl
@[simp] theorem State.setOrders_link (s : State) (x : OrderTable) : (s.setOrders x).link = s.link := rfl
@[simp] theorem State.setOrders_screens (s : State) (x : OrderTable) : (s.setOrders x).screens = s.screens := rfl
@[simp] theorem State.setOrders_outputs (s : State) (x : OrderTable) : (s.setOrders x).outputs = s.outputs := rfl
@[simp] theorem State.setOrders_intake (s : State) (x : OrderTable) : (s.setOrders x).intake = s.intake := rfl
@[simp] theorem State.setOrders_mixers (s : State) (x : OrderTable) : (s.setOrders x).mixers = s.mixers := rfl
@[simp] theorem State.setOrders_delays (s : State) (x : OrderTable) : (s.setOrders x).delays = s.delays := rfl
@[simp] theorem State.setOrders_announce (s : State) (x : OrderTable) : (s.setOrders x).announce = s.announce := rfl
@[simp] theorem State.setOrders_lines (s : State) (x : OrderTable) : (s.setOrders x).lines = s.lines := rfl
@[simp] theorem State.setOrders_posts (s : State) (x : OrderTable) : (s.setOrders x).posts = s.posts := rfl
@[simp] theorem State.setOrders_surveys (s : State) (x : OrderTable) : (s.setOrders x).surveys = s.surveys := rfl
@[simp] theorem State.setOrders_gate (s : State) (x : OrderTable) : (s.setOrders x).gate = s.gate := rfl
@[simp] theorem State.setOrders_fields (s : State) (x : OrderTable) : (s.setOrders x).fields = s.fields := rfl
@[simp] theorem State.setOrders_orders (s : State) (x : OrderTable) : (s.setOrders x).orders = x := rfl

/-! ### `State.setLink` -/

@[simp] theorem State.setLink_clock (s : State) (x : Link) : (s.setLink x).clock = s.clock := rfl
@[simp] theorem State.setLink_freeCount (s : State) (x : Link) : (s.setLink x).freeCount = s.freeCount := rfl
@[simp] theorem State.setLink_pending (s : State) (x : Link) : (s.setLink x).pending = s.pending := rfl
@[simp] theorem State.setLink_link (s : State) (x : Link) : (s.setLink x).link = x := rfl
@[simp] theorem State.setLink_screens (s : State) (x : Link) : (s.setLink x).screens = s.screens := rfl
@[simp] theorem State.setLink_outputs (s : State) (x : Link) : (s.setLink x).outputs = s.outputs := rfl
@[simp] theorem State.setLink_intake (s : State) (x : Link) : (s.setLink x).intake = s.intake := rfl
@[simp] theorem State.setLink_mixers (s : State) (x : Link) : (s.setLink x).mixers = s.mixers := rfl
@[simp] theorem State.setLink_delays (s : State) (x : Link) : (s.setLink x).delays = s.delays := rfl
@[simp] theorem State.setLink_announce (s : State) (x : Link) : (s.setLink x).announce = s.announce := rfl
@[simp] theorem State.setLink_lines (s : State) (x : Link) : (s.setLink x).lines = s.lines := rfl
@[simp] theorem State.setLink_posts (s : State) (x : Link) : (s.setLink x).posts = s.posts := rfl
@[simp] theorem State.setLink_surveys (s : State) (x : Link) : (s.setLink x).surveys = s.surveys := rfl
@[simp] theorem State.setLink_gate (s : State) (x : Link) : (s.setLink x).gate = s.gate := rfl
@[simp] theorem State.setLink_fields (s : State) (x : Link) : (s.setLink x).fields = s.fields := rfl
@[simp] theorem State.setLink_orders (s : State) (x : Link) : (s.setLink x).orders = s.orders := rfl

/-! ### `State.at_` -/

@[simp] theorem State.at__clock (s : State) (d : Nat) : (s.at_ d).clock = max s.clock d := rfl
@[simp] theorem State.at__freeCount (s : State) (d : Nat) : (s.at_ d).freeCount = s.freeCount := rfl
@[simp] theorem State.at__pending (s : State) (d : Nat) : (s.at_ d).pending = s.pending := rfl
@[simp] theorem State.at__link (s : State) (d : Nat) : (s.at_ d).link = s.link := rfl
@[simp] theorem State.at__screens (s : State) (d : Nat) : (s.at_ d).screens = s.screens := rfl
@[simp] theorem State.at__outputs (s : State) (d : Nat) : (s.at_ d).outputs = s.outputs := rfl
@[simp] theorem State.at__intake (s : State) (d : Nat) : (s.at_ d).intake = s.intake := rfl
@[simp] theorem State.at__mixers (s : State) (d : Nat) : (s.at_ d).mixers = s.mixers := rfl
@[simp] theorem State.at__delays (s : State) (d : Nat) : (s.at_ d).delays = s.delays := rfl
@[simp] theorem State.at__announce (s : State) (d : Nat) : (s.at_ d).announce = s.announce := rfl
@[simp] theorem State.at__lines (s : State) (d : Nat) : (s.at_ d).lines = s.lines := rfl
@[simp] theorem State.at__posts (s : State) (d : Nat) : (s.at_ d).posts = s.posts := rfl
@[simp] theorem State.at__surveys (s : State) (d : Nat) : (s.at_ d).surveys = s.surveys := rfl
@[simp] theorem State.at__gate (s : State) (d : Nat) : (s.at_ d).gate = s.gate := rfl
@[simp] theorem State.at__fields (s : State) (d : Nat) : (s.at_ d).fields = s.fields := rfl
@[simp] theorem State.at__orders (s : State) (d : Nat) : (s.at_ d).orders = s.orders := rfl

/-! ### `State.report` -/

@[simp] theorem State.report_clock (s : State) (c : Source) (r : Report) : (s.report c r).clock = s.clock := rfl
@[simp] theorem State.report_freeCount (s : State) (c : Source) (r : Report) : (s.report c r).freeCount = s.freeCount := rfl
@[simp] theorem State.report_pending (s : State) (c : Source) (r : Report) : (s.report c r).pending = s.pending := rfl
@[simp] theorem State.report_link (s : State) (c : Source) (r : Report) : (s.report c r).link = Link.report s.link c r := rfl
@[simp] theorem State.report_screens (s : State) (c : Source) (r : Report) : (s.report c r).screens = s.screens := rfl
@[simp] theorem State.report_outputs (s : State) (c : Source) (r : Report) : (s.report c r).outputs = s.outputs := rfl
@[simp] theorem State.report_intake (s : State) (c : Source) (r : Report) : (s.report c r).intake = s.intake := rfl
@[simp] theorem State.report_mixers (s : State) (c : Source) (r : Report) : (s.report c r).mixers = s.mixers := rfl
@[simp] theorem State.report_delays (s : State) (c : Source) (r : Report) : (s.report c r).delays = s.delays := rfl
@[simp] theorem State.report_announce (s : State) (c : Source) (r : Report) : (s.report c r).announce = s.announce := rfl
@[simp] theorem State.report_lines (s : State) (c : Source) (r : Report) : (s.report c r).lines = s.lines := rfl
@[simp] theorem State.report_posts (s : State) (c : Source) (r : Report) : (s.report c r).posts = s.posts := rfl
@[simp] theorem State.report_surveys (s : State) (c : Source) (r : Report) : (s.report c r).surveys = s.surveys := rfl
@[simp] theorem State.report_gate (s : State) (c : Source) (r : Report) : (s.report c r).gate = s.gate := rfl
@[simp] theorem State.report_fields (s : State) (c : Source) (r : Report) : (s.report c r).fields = s.fields := rfl
@[simp] theorem State.report_orders (s : State) (c : Source) (r : Report) : (s.report c r).orders = s.orders := rfl

/-! ### `State.setCond` -/

@[simp] theorem State.setCond_clock (s : State) (c : Cond) (b : Bool) : (s.setCond c b).clock = s.clock := rfl
@[simp] theorem State.setCond_freeCount (s : State) (c : Cond) (b : Bool) : (s.setCond c b).freeCount = s.freeCount := rfl
@[simp] theorem State.setCond_pending (s : State) (c : Cond) (b : Bool) : (s.setCond c b).pending = s.pending := rfl
@[simp] theorem State.setCond_link (s : State) (c : Cond) (b : Bool) : (s.setCond c b).link = Link.setCond s.link c b := rfl
@[simp] theorem State.setCond_screens (s : State) (c : Cond) (b : Bool) : (s.setCond c b).screens = s.screens := rfl
@[simp] theorem State.setCond_outputs (s : State) (c : Cond) (b : Bool) : (s.setCond c b).outputs = s.outputs := rfl
@[simp] theorem State.setCond_intake (s : State) (c : Cond) (b : Bool) : (s.setCond c b).intake = s.intake := rfl
@[simp] theorem State.setCond_mixers (s : State) (c : Cond) (b : Bool) : (s.setCond c b).mixers = s.mixers := rfl
@[simp] theorem State.setCond_delays (s : State) (c : Cond) (b : Bool) : (s.setCond c b).delays = s.delays := rfl
@[simp] theorem State.setCond_announce (s : State) (c : Cond) (b : Bool) : (s.setCond c b).announce = s.announce := rfl
@[simp] theorem State.setCond_lines (s : State) (c : Cond) (b : Bool) : (s.setCond c b).lines = s.lines := rfl
@[simp] theorem State.setCond_posts (s : State) (c : Cond) (b : Bool) : (s.setCond c b).posts = s.posts := rfl
@[simp] theorem State.setCond_surveys (s : State) (c : Cond) (b : Bool) : (s.setCond c b).surveys = s.surveys := rfl
@[simp] theorem State.setCond_gate (s : State) (c : Cond) (b : Bool) : (s.setCond c b).gate = s.gate := rfl
@[simp] theorem State.setCond_fields (s : State) (c : Cond) (b : Bool) : (s.setCond c b).fields = s.fields := rfl
@[simp] theorem State.setCond_orders (s : State) (c : Cond) (b : Bool) : (s.setCond c b).orders = s.orders := rfl

/-! ### `State.kick` -/

@[simp] theorem State.kick_clock (s : State) : s.kick.clock = s.clock := rfl
@[simp] theorem State.kick_freeCount (s : State) : s.kick.freeCount = s.freeCount := rfl
@[simp] theorem State.kick_pending (s : State) : s.kick.pending = s.pending := rfl
@[simp] theorem State.kick_link (s : State) : s.kick.link = Link.kick s.link := rfl
@[simp] theorem State.kick_screens (s : State) : s.kick.screens = s.screens := rfl
@[simp] theorem State.kick_outputs (s : State) : s.kick.outputs = s.outputs := rfl
@[simp] theorem State.kick_intake (s : State) : s.kick.intake = s.intake := rfl
@[simp] theorem State.kick_mixers (s : State) : s.kick.mixers = s.mixers := rfl
@[simp] theorem State.kick_delays (s : State) : s.kick.delays = s.delays := rfl
@[simp] theorem State.kick_announce (s : State) : s.kick.announce = s.announce := rfl
@[simp] theorem State.kick_lines (s : State) : s.kick.lines = s.lines := rfl
@[simp] theorem State.kick_posts (s : State) : s.kick.posts = s.posts := rfl
@[simp] theorem State.kick_surveys (s : State) : s.kick.surveys = s.surveys := rfl
@[simp] theorem State.kick_gate (s : State) : s.kick.gate = s.gate := rfl
@[simp] theorem State.kick_fields (s : State) : s.kick.fields = s.fields := rfl
@[simp] theorem State.kick_orders (s : State) : s.kick.orders = s.orders := rfl

/-! ### `State.setNode` -/

@[simp] theorem State.setNode_clock (s : State) (n : Nr) (a : Fin 97) (v : Node) : (s.setNode n a v).clock = s.clock := rfl
@[simp] theorem State.setNode_freeCount (s : State) (n : Nr) (a : Fin 97) (v : Node) : (s.setNode n a v).freeCount = s.freeCount := rfl
@[simp] theorem State.setNode_pending (s : State) (n : Nr) (a : Fin 97) (v : Node) : (s.setNode n a v).pending = s.pending := rfl
@[simp] theorem State.setNode_link (s : State) (n : Nr) (a : Fin 97) (v : Node) : (s.setNode n a v).link = s.link := rfl
@[simp] theorem State.setNode_screens (s : State) (n : Nr) (a : Fin 97) (v : Node) : (s.setNode n a v).screens = s.screens := rfl
@[simp] theorem State.setNode_outputs (s : State) (n : Nr) (a : Fin 97) (v : Node) : (s.setNode n a v).outputs = s.outputs := rfl
@[simp] theorem State.setNode_intake (s : State) (n : Nr) (a : Fin 97) (v : Node) : (s.setNode n a v).intake = s.intake := rfl
@[simp] theorem State.setNode_mixers (s : State) (n : Nr) (a : Fin 97) (v : Node) : (s.setNode n a v).mixers = s.mixers := rfl
@[simp] theorem State.setNode_delays (s : State) (n : Nr) (a : Fin 97) (v : Node) : (s.setNode n a v).delays = s.delays := rfl
@[simp] theorem State.setNode_announce (s : State) (n : Nr) (a : Fin 97) (v : Node) : (s.setNode n a v).announce = s.announce := rfl
@[simp] theorem State.setNode_lines (s : State) (n : Nr) (a : Fin 97) (v : Node) : (s.setNode n a v).lines = s.lines := rfl
@[simp] theorem State.setNode_posts (s : State) (n : Nr) (a : Fin 97) (v : Node) : (s.setNode n a v).posts = s.posts.set n ((s.posts.get n).put a v) := rfl
@[simp] theorem State.setNode_surveys (s : State) (n : Nr) (a : Fin 97) (v : Node) : (s.setNode n a v).surveys = s.surveys := rfl
@[simp] theorem State.setNode_gate (s : State) (n : Nr) (a : Fin 97) (v : Node) : (s.setNode n a v).gate = s.gate := rfl
@[simp] theorem State.setNode_fields (s : State) (n : Nr) (a : Fin 97) (v : Node) : (s.setNode n a v).fields = s.fields := rfl
@[simp] theorem State.setNode_orders (s : State) (n : Nr) (a : Fin 97) (v : Node) : (s.setNode n a v).orders = s.orders := rfl

/-! ### `State.setHold` -/

@[simp] theorem State.setHold_clock (s : State) (n : Nr) (l : Level) : (s.setHold n l).clock = s.clock := rfl
@[simp] theorem State.setHold_freeCount (s : State) (n : Nr) (l : Level) : (s.setHold n l).freeCount = s.freeCount := rfl
@[simp] theorem State.setHold_pending (s : State) (n : Nr) (l : Level) : (s.setHold n l).pending = s.pending := rfl
@[simp] theorem State.setHold_link (s : State) (n : Nr) (l : Level) : (s.setHold n l).link = s.link := rfl
@[simp] theorem State.setHold_screens (s : State) (n : Nr) (l : Level) : (s.setHold n l).screens = s.screens := rfl
@[simp] theorem State.setHold_outputs (s : State) (n : Nr) (l : Level) : (s.setHold n l).outputs = s.outputs.set n { s.outputs.get n with hold := l } := rfl
@[simp] theorem State.setHold_intake (s : State) (n : Nr) (l : Level) : (s.setHold n l).intake = s.intake := rfl
@[simp] theorem State.setHold_mixers (s : State) (n : Nr) (l : Level) : (s.setHold n l).mixers = s.mixers := rfl
@[simp] theorem State.setHold_delays (s : State) (n : Nr) (l : Level) : (s.setHold n l).delays = s.delays := rfl
@[simp] theorem State.setHold_announce (s : State) (n : Nr) (l : Level) : (s.setHold n l).announce = s.announce := rfl
@[simp] theorem State.setHold_lines (s : State) (n : Nr) (l : Level) : (s.setHold n l).lines = s.lines := rfl
@[simp] theorem State.setHold_posts (s : State) (n : Nr) (l : Level) : (s.setHold n l).posts = s.posts := rfl
@[simp] theorem State.setHold_surveys (s : State) (n : Nr) (l : Level) : (s.setHold n l).surveys = s.surveys := rfl
@[simp] theorem State.setHold_gate (s : State) (n : Nr) (l : Level) : (s.setHold n l).gate = s.gate := rfl
@[simp] theorem State.setHold_fields (s : State) (n : Nr) (l : Level) : (s.setHold n l).fields = s.fields := rfl
@[simp] theorem State.setHold_orders (s : State) (n : Nr) (l : Level) : (s.setHold n l).orders = s.orders := rfl

/-! ### `State.setBoothLine` -/

@[simp] theorem State.setBoothLine_clock (s : State) (n : Nr) (l : BoothLine) (r : LineRec) : (s.setBoothLine n l r).clock = s.clock := rfl
@[simp] theorem State.setBoothLine_freeCount (s : State) (n : Nr) (l : BoothLine) (r : LineRec) : (s.setBoothLine n l r).freeCount = s.freeCount := rfl
@[simp] theorem State.setBoothLine_pending (s : State) (n : Nr) (l : BoothLine) (r : LineRec) : (s.setBoothLine n l r).pending = s.pending := rfl
@[simp] theorem State.setBoothLine_link (s : State) (n : Nr) (l : BoothLine) (r : LineRec) : (s.setBoothLine n l r).link = s.link := rfl
@[simp] theorem State.setBoothLine_screens (s : State) (n : Nr) (l : BoothLine) (r : LineRec) : (s.setBoothLine n l r).screens = s.screens := rfl
@[simp] theorem State.setBoothLine_outputs (s : State) (n : Nr) (l : BoothLine) (r : LineRec) : (s.setBoothLine n l r).outputs = s.outputs.set n { s.outputs.get n with lines := (s.outputs.get n).lines.set l r } := rfl
@[simp] theorem State.setBoothLine_intake (s : State) (n : Nr) (l : BoothLine) (r : LineRec) : (s.setBoothLine n l r).intake = s.intake := rfl
@[simp] theorem State.setBoothLine_mixers (s : State) (n : Nr) (l : BoothLine) (r : LineRec) : (s.setBoothLine n l r).mixers = s.mixers := rfl
@[simp] theorem State.setBoothLine_delays (s : State) (n : Nr) (l : BoothLine) (r : LineRec) : (s.setBoothLine n l r).delays = s.delays := rfl
@[simp] theorem State.setBoothLine_announce (s : State) (n : Nr) (l : BoothLine) (r : LineRec) : (s.setBoothLine n l r).announce = s.announce := rfl
@[simp] theorem State.setBoothLine_lines (s : State) (n : Nr) (l : BoothLine) (r : LineRec) : (s.setBoothLine n l r).lines = s.lines := rfl
@[simp] theorem State.setBoothLine_posts (s : State) (n : Nr) (l : BoothLine) (r : LineRec) : (s.setBoothLine n l r).posts = s.posts := rfl
@[simp] theorem State.setBoothLine_surveys (s : State) (n : Nr) (l : BoothLine) (r : LineRec) : (s.setBoothLine n l r).surveys = s.surveys := rfl
@[simp] theorem State.setBoothLine_gate (s : State) (n : Nr) (l : BoothLine) (r : LineRec) : (s.setBoothLine n l r).gate = s.gate := rfl
@[simp] theorem State.setBoothLine_fields (s : State) (n : Nr) (l : BoothLine) (r : LineRec) : (s.setBoothLine n l r).fields = s.fields := rfl
@[simp] theorem State.setBoothLine_orders (s : State) (n : Nr) (l : BoothLine) (r : LineRec) : (s.setBoothLine n l r).orders = s.orders := rfl

/-! ### `State.setOrder` -/

@[simp] theorem State.setOrder_clock (s : State) (o : Order) : (s.setOrder o).clock = s.clock := rfl
@[simp] theorem State.setOrder_freeCount (s : State) (o : Order) : (s.setOrder o).freeCount = s.freeCount := rfl
@[simp] theorem State.setOrder_pending (s : State) (o : Order) : (s.setOrder o).pending = s.pending := rfl
@[simp] theorem State.setOrder_link (s : State) (o : Order) : (s.setOrder o).link = s.link := rfl
@[simp] theorem State.setOrder_screens (s : State) (o : Order) : (s.setOrder o).screens = s.screens := rfl
@[simp] theorem State.setOrder_outputs (s : State) (o : Order) : (s.setOrder o).outputs = s.outputs := rfl
@[simp] theorem State.setOrder_intake (s : State) (o : Order) : (s.setOrder o).intake = s.intake := rfl
@[simp] theorem State.setOrder_mixers (s : State) (o : Order) : (s.setOrder o).mixers = s.mixers := rfl
@[simp] theorem State.setOrder_delays (s : State) (o : Order) : (s.setOrder o).delays = s.delays := rfl
@[simp] theorem State.setOrder_announce (s : State) (o : Order) : (s.setOrder o).announce = s.announce := rfl
@[simp] theorem State.setOrder_lines (s : State) (o : Order) : (s.setOrder o).lines = s.lines := rfl
@[simp] theorem State.setOrder_posts (s : State) (o : Order) : (s.setOrder o).posts = s.posts := rfl
@[simp] theorem State.setOrder_surveys (s : State) (o : Order) : (s.setOrder o).surveys = s.surveys := rfl
@[simp] theorem State.setOrder_gate (s : State) (o : Order) : (s.setOrder o).gate = s.gate := rfl
@[simp] theorem State.setOrder_fields (s : State) (o : Order) : (s.setOrder o).fields = s.fields := rfl
@[simp] theorem State.setOrder_orders (s : State) (o : Order) : (s.setOrder o).orders = { s.orders with live := s.orders.live.map fun p => if p.number = o.number then o else p } := rfl

/-! ### `State.setMenu` -/

@[simp] theorem State.setMenu_clock (s : State) (m : List MenuItem) : (s.setMenu m).clock = s.clock := rfl
@[simp] theorem State.setMenu_freeCount (s : State) (m : List MenuItem) : (s.setMenu m).freeCount = s.freeCount := rfl
@[simp] theorem State.setMenu_pending (s : State) (m : List MenuItem) : (s.setMenu m).pending = s.pending := rfl
@[simp] theorem State.setMenu_link (s : State) (m : List MenuItem) : (s.setMenu m).link = s.link := rfl
@[simp] theorem State.setMenu_screens (s : State) (m : List MenuItem) : (s.setMenu m).screens = s.screens := rfl
@[simp] theorem State.setMenu_outputs (s : State) (m : List MenuItem) : (s.setMenu m).outputs = s.outputs := rfl
@[simp] theorem State.setMenu_intake (s : State) (m : List MenuItem) : (s.setMenu m).intake = s.intake := rfl
@[simp] theorem State.setMenu_mixers (s : State) (m : List MenuItem) : (s.setMenu m).mixers = s.mixers := rfl
@[simp] theorem State.setMenu_delays (s : State) (m : List MenuItem) : (s.setMenu m).delays = s.delays := rfl
@[simp] theorem State.setMenu_announce (s : State) (m : List MenuItem) : (s.setMenu m).announce = s.announce := rfl
@[simp] theorem State.setMenu_lines (s : State) (m : List MenuItem) : (s.setMenu m).lines = s.lines := rfl
@[simp] theorem State.setMenu_posts (s : State) (m : List MenuItem) : (s.setMenu m).posts = s.posts := rfl
@[simp] theorem State.setMenu_surveys (s : State) (m : List MenuItem) : (s.setMenu m).surveys = s.surveys := rfl
@[simp] theorem State.setMenu_gate (s : State) (m : List MenuItem) : (s.setMenu m).gate = s.gate := rfl
@[simp] theorem State.setMenu_fields (s : State) (m : List MenuItem) : (s.setMenu m).fields = s.fields := rfl
@[simp] theorem State.setMenu_orders (s : State) (m : List MenuItem) : (s.setMenu m).orders = { s.orders with menu := m } := rfl

/-! ### `State.reportAnn` -/

@[simp] theorem State.reportAnn_clock (s : State) (a : Ann) (m : AnnMark) : (s.reportAnn a m).clock = s.clock := rfl
@[simp] theorem State.reportAnn_freeCount (s : State) (a : Ann) (m : AnnMark) : (s.reportAnn a m).freeCount = s.freeCount := rfl
@[simp] theorem State.reportAnn_pending (s : State) (a : Ann) (m : AnnMark) : (s.reportAnn a m).pending = s.pending := rfl
@[simp] theorem State.reportAnn_link (s : State) (a : Ann) (m : AnnMark) : (s.reportAnn a m).link = Link.report s.link .announce (.announceState a.id a.kind a.pattern a.targets a.priority a.origin m) := rfl
@[simp] theorem State.reportAnn_screens (s : State) (a : Ann) (m : AnnMark) : (s.reportAnn a m).screens = s.screens := rfl
@[simp] theorem State.reportAnn_outputs (s : State) (a : Ann) (m : AnnMark) : (s.reportAnn a m).outputs = s.outputs := rfl
@[simp] theorem State.reportAnn_intake (s : State) (a : Ann) (m : AnnMark) : (s.reportAnn a m).intake = s.intake := rfl
@[simp] theorem State.reportAnn_mixers (s : State) (a : Ann) (m : AnnMark) : (s.reportAnn a m).mixers = s.mixers := rfl
@[simp] theorem State.reportAnn_delays (s : State) (a : Ann) (m : AnnMark) : (s.reportAnn a m).delays = s.delays := rfl
@[simp] theorem State.reportAnn_announce (s : State) (a : Ann) (m : AnnMark) : (s.reportAnn a m).announce = s.announce := rfl
@[simp] theorem State.reportAnn_lines (s : State) (a : Ann) (m : AnnMark) : (s.reportAnn a m).lines = s.lines := rfl
@[simp] theorem State.reportAnn_posts (s : State) (a : Ann) (m : AnnMark) : (s.reportAnn a m).posts = s.posts := rfl
@[simp] theorem State.reportAnn_surveys (s : State) (a : Ann) (m : AnnMark) : (s.reportAnn a m).surveys = s.surveys := rfl
@[simp] theorem State.reportAnn_gate (s : State) (a : Ann) (m : AnnMark) : (s.reportAnn a m).gate = s.gate := rfl
@[simp] theorem State.reportAnn_fields (s : State) (a : Ann) (m : AnnMark) : (s.reportAnn a m).fields = s.fields := rfl
@[simp] theorem State.reportAnn_orders (s : State) (a : Ann) (m : AnnMark) : (s.reportAnn a m).orders = s.orders := rfl

/-! ### `State.enterDown` -/

@[simp] theorem State.enterDown_clock (s : State) (n : Nr) (a : Nat) (m : DownMsg) (r : DownSource) : (s.enterDown n a m r).clock = s.clock := rfl
@[simp] theorem State.enterDown_freeCount (s : State) (n : Nr) (a : Nat) (m : DownMsg) (r : DownSource) : (s.enterDown n a m r).freeCount = s.freeCount := rfl
@[simp] theorem State.enterDown_pending (s : State) (n : Nr) (a : Nat) (m : DownMsg) (r : DownSource) : (s.enterDown n a m r).pending = s.pending := rfl
@[simp] theorem State.enterDown_link (s : State) (n : Nr) (a : Nat) (m : DownMsg) (r : DownSource) : (s.enterDown n a m r).link = s.link := rfl
@[simp] theorem State.enterDown_screens (s : State) (n : Nr) (a : Nat) (m : DownMsg) (r : DownSource) : (s.enterDown n a m r).screens = s.screens := rfl
@[simp] theorem State.enterDown_outputs (s : State) (n : Nr) (a : Nat) (m : DownMsg) (r : DownSource) : (s.enterDown n a m r).outputs = s.outputs := rfl
@[simp] theorem State.enterDown_intake (s : State) (n : Nr) (a : Nat) (m : DownMsg) (r : DownSource) : (s.enterDown n a m r).intake = s.intake := rfl
@[simp] theorem State.enterDown_mixers (s : State) (n : Nr) (a : Nat) (m : DownMsg) (r : DownSource) : (s.enterDown n a m r).mixers = s.mixers := rfl
@[simp] theorem State.enterDown_delays (s : State) (n : Nr) (a : Nat) (m : DownMsg) (r : DownSource) : (s.enterDown n a m r).delays = s.delays := rfl
@[simp] theorem State.enterDown_announce (s : State) (n : Nr) (a : Nat) (m : DownMsg) (r : DownSource) : (s.enterDown n a m r).announce = s.announce := rfl
@[simp] theorem State.enterDown_lines (s : State) (n : Nr) (a : Nat) (m : DownMsg) (r : DownSource) : (s.enterDown n a m r).lines = s.lines := rfl
@[simp] theorem State.enterDown_posts (s : State) (n : Nr) (a : Nat) (m : DownMsg) (r : DownSource) : (s.enterDown n a m r).posts = s.posts.set n ((s.posts.get n).enter s.clock a m r) := rfl
@[simp] theorem State.enterDown_surveys (s : State) (n : Nr) (a : Nat) (m : DownMsg) (r : DownSource) : (s.enterDown n a m r).surveys = s.surveys := rfl
@[simp] theorem State.enterDown_gate (s : State) (n : Nr) (a : Nat) (m : DownMsg) (r : DownSource) : (s.enterDown n a m r).gate = s.gate := rfl
@[simp] theorem State.enterDown_fields (s : State) (n : Nr) (a : Nat) (m : DownMsg) (r : DownSource) : (s.enterDown n a m r).fields = s.fields := rfl
@[simp] theorem State.enterDown_orders (s : State) (n : Nr) (a : Nat) (m : DownMsg) (r : DownSource) : (s.enterDown n a m r).orders = s.orders := rfl

end Machine

end Sys2Proof
end

