-- ==== Sys2Proof/Laws/Frame.lean ====
section
/-! SUPPORT. What each shared operation can change: one `OnlyChanges` lemma for each, with its form for `simp`, which peels the
operation off a state once the list of parts holds what the operation can change. -/

namespace Sys2Proof.Machine

/-! ### The relation -/

theorem OnlyChanges.refl (l : List Part) (s : State) : OnlyChanges l s s := by
  intro p _; cases p <;> simp [Part.same]

@[simp] theorem onlyChanges_self (l : List Part) (s : State) : OnlyChanges l s s ↔ True := iff_true_intro (.refl l s)

theorem Part.same_symm {s t : State} {p : Part} (h : p.same s t) : p.same t s := by
  cases p <;> simp_all [Part.same]

theorem Part.same_trans {s t u : State} {p : Part} (h : p.same s t) (k : p.same t u) : p.same s u := by
  cases p <;> simp_all [Part.same]

theorem OnlyChanges.symm {l : List Part} {s t : State} (h : OnlyChanges l s t) : OnlyChanges l t s :=
  fun p hp => Part.same_symm (h p hp)

theorem OnlyChanges.trans {l : List Part} {s t u : State} (h : OnlyChanges l s t) (k : OnlyChanges l t u) : OnlyChanges l s u :=
  fun p hp => Part.same_trans (h p hp) (k p hp)

theorem OnlyChanges.mono {l m : List Part} {s t : State} (h : OnlyChanges l s t) (hl : l ⊆ m) : OnlyChanges m s t :=
  fun p hp => h p fun hq => hp (hl hq)

/-- An operation that changes only what the list holds can be peeled off the later state. -/
theorem OnlyChanges.peel {l m : List Part} {a s t : State} (h : OnlyChanges l s t) (hl : l ⊆ m) :
    OnlyChanges m a t ↔ OnlyChanges m a s :=
  ⟨fun k => k.trans (h.mono hl).symm, fun k => k.trans (h.mono hl)⟩

theorem OnlyChanges.foldl {α : Type} {l : List Part} (f : State → α → State) (hf : ∀ s x, OnlyChanges l s (f s x)) :
    ∀ (xs : List α) (s : State), OnlyChanges l s (xs.foldl f s)
  | [], s => .refl l s
  | x :: xs, s => (hf s x).trans (OnlyChanges.foldl f hf xs (f s x))

theorem OnlyChanges.foldl_peel {α : Type} {l : List Part} (f : State → α → State) (hf : ∀ s x, OnlyChanges l s (f s x))
    (xs : List α) (s₀ s : State) : OnlyChanges l s₀ (xs.foldl f s) ↔ OnlyChanges l s₀ s :=
  (OnlyChanges.foldl f hf xs s).peel (List.Subset.refl l)

/-- A number is one of the four. -/
@[simp] theorem Nr.one_of_four (n : Nr) : (n = .one ∨ n = .two ∨ n = .three ∨ n = .four) ↔ True := by cases n <;> simp

/-! ### Conditions -/

/-- The numbers of the conditions are distinct (R201). -/
theorem Cond.number_inj {c d : Cond} (h : Cond.number c = Cond.number d) : c = d := by
  cases c <;> cases d <;> (try (rename_i n; cases n)) <;> (try (rename_i k; cases k)) <;> simp_all [Cond.number, Nr.place, Nr.toNat]

theorem Cond.number_lt (c : Cond) : Cond.number c < 38 := by
  cases c <;> (try (rename_i n; cases n)) <;> simp [Cond.number, Nr.place, Nr.toNat]

theorem setFlag_get {flags : BitVec 38} {k j : Nat} (b : Bool) (hj : j < 38) :
    (setFlag flags k b).getLsbD j = if j = k then b else flags.getLsbD j := by
  unfold setFlag
  by_cases h : j = k
  · subst h; cases b <;> simp [hj]
  · cases b <;> simp [h, hj] <;> intros <;> omega

/-! ### The updates of one part -/

theorem setScreen_only (s : State) (n : Nr) (x : Screen) : OnlyChanges [.screen n] s (s.setScreen n x) := by
  intro p hp; cases p <;> simp_all [Part.same, Four.get_set]

@[simp] theorem setScreen_peel (s : State) (n : Nr) (x : Screen) {l : List Part} {s₀ : State} (h : [.screen n] ⊆ l) :
    OnlyChanges l s₀ (s.setScreen n x) ↔ OnlyChanges l s₀ s := (setScreen_only s n x).peel h

theorem setOutput_only (s : State) (n : Nr) (x : OutputUnit) : OnlyChanges [.output n] s (s.setOutput n x) := by
  intro p hp; cases p <;> simp_all [Part.same, Four.get_set]

@[simp] theorem setOutput_peel (s : State) (n : Nr) (x : OutputUnit) {l : List Part} {s₀ : State} (h : [.output n] ⊆ l) :
    OnlyChanges l s₀ (s.setOutput n x) ↔ OnlyChanges l s₀ s := (setOutput_only s n x).peel h

theorem setMixer_only (s : State) (n : Nr) (x : Mixer) : OnlyChanges [.mixer n] s (s.setMixer n x) := by
  intro p hp; cases p <;> simp_all [Part.same, Four.get_set]

@[simp] theorem setMixer_peel (s : State) (n : Nr) (x : Mixer) {l : List Part} {s₀ : State} (h : [.mixer n] ⊆ l) :
    OnlyChanges l s₀ (s.setMixer n x) ↔ OnlyChanges l s₀ s := (setMixer_only s n x).peel h

theorem setDelay_only (s : State) (n : Nr) (x : DelayLine) : OnlyChanges [.delay n] s (s.setDelay n x) := by
  intro p hp; cases p <;> simp_all [Part.same, Four.get_set]

@[simp] theorem setDelay_peel (s : State) (n : Nr) (x : DelayLine) {l : List Part} {s₀ : State} (h : [.delay n] ⊆ l) :
    OnlyChanges l s₀ (s.setDelay n x) ↔ OnlyChanges l s₀ s := (setDelay_only s n x).peel h

theorem setLine_only (s : State) (n : Nr) (x : LineCtl) : OnlyChanges [.line n] s (s.setLine n x) := by
  intro p hp; cases p <;> simp_all [Part.same, Four.get_set]

@[simp] theorem setLine_peel (s : State) (n : Nr) (x : LineCtl) {l : List Part} {s₀ : State} (h : [.line n] ⊆ l) :
    OnlyChanges l s₀ (s.setLine n x) ↔ OnlyChanges l s₀ s := (setLine_only s n x).peel h

theorem setPost_only (s : State) (n : Nr) (x : PostTable) : OnlyChanges [.post n] s (s.setPost n x) := by
  intro p hp; cases p <;> simp_all [Part.same, Four.get_set]

@[simp] theorem setPost_peel (s : State) (n : Nr) (x : PostTable) {l : List Part} {s₀ : State} (h : [.post n] ⊆ l) :
    OnlyChanges l s₀ (s.setPost n x) ↔ OnlyChanges l s₀ s := (setPost_only s n x).peel h

theorem setSurvey_only (s : State) (n : Nr) (x : SurveyUnit) : OnlyChanges [.survey n] s (s.setSurvey n x) := by
  intro p hp; cases p <;> simp_all [Part.same, Four.get_set]

@[simp] theorem setSurvey_peel (s : State) (n : Nr) (x : SurveyUnit) {l : List Part} {s₀ : State} (h : [.survey n] ⊆ l) :
    OnlyChanges l s₀ (s.setSurvey n x) ↔ OnlyChanges l s₀ s := (setSurvey_only s n x).peel h

theorem setField_only (s : State) (n : Nr) (x : Occupancy) : OnlyChanges [.field n] s (s.setField n x) := by
  intro p hp; cases p <;> simp_all [Part.same, Four.get_set]

@[simp] theorem setField_peel (s : State) (n : Nr) (x : Occupancy) {l : List Part} {s₀ : State} (h : [.field n] ⊆ l) :
    OnlyChanges l s₀ (s.setField n x) ↔ OnlyChanges l s₀ s := (setField_only s n x).peel h

theorem setLane_only (s : State) (n : Nr) (x : Lane) : OnlyChanges [.lane n] s (s.setLane n x) := by
  intro p hp; cases p <;> simp_all [Part.same, Four.get_set]

@[simp] theorem setLane_peel (s : State) (n : Nr) (x : Lane) {l : List Part} {s₀ : State} (h : [.lane n] ⊆ l) :
    OnlyChanges l s₀ (s.setLane n x) ↔ OnlyChanges l s₀ s := (setLane_only s n x).peel h

theorem setAnnounce_only (s : State) (x : AnnounceUnit) : OnlyChanges [.announce] s (s.setAnnounce x) := by
  intro p hp; cases p <;> simp_all [Part.same]

@[simp] theorem setAnnounce_peel (s : State) (x : AnnounceUnit) {l : List Part} {s₀ : State} (h : [.announce] ⊆ l) :
    OnlyChanges l s₀ (s.setAnnounce x) ↔ OnlyChanges l s₀ s := (setAnnounce_only s x).peel h

theorem setOrders_only (s : State) (x : OrderTable) : OnlyChanges [.orders] s (s.setOrders x) := by
  intro p hp; cases p <;> simp_all [Part.same]

@[simp] theorem setOrders_peel (s : State) (x : OrderTable) {l : List Part} {s₀ : State} (h : [.orders] ⊆ l) :
    OnlyChanges l s₀ (s.setOrders x) ↔ OnlyChanges l s₀ s := (setOrders_only s x).peel h

theorem at__only (s : State) (d : Nat) : OnlyChanges [.clock] s (s.at_ d) := by
  intro p hp; cases p <;> simp_all [Part.same]

@[simp] theorem at__peel (s : State) (d : Nat) {l : List Part} {s₀ : State} (h : [.clock] ⊆ l) :
    OnlyChanges l s₀ (s.at_ d) ↔ OnlyChanges l s₀ s := (at__only s d).peel h

theorem freeCount_only (s : State) (k : Nat) : OnlyChanges [.freeCount] s { s with freeCount := k } := by
  intro p hp; cases p <;> simp_all [Part.same]

theorem intake_only (s : State) (k : Intake) : OnlyChanges [.intake] s { s with intake := k } := by
  intro p hp; cases p <;> simp_all [Part.same]

theorem site_only (s : State) (k : Nat) : OnlyChanges [.site] s { s with gate := { s.gate with site := k } } := by
  intro p hp; cases p <;> simp_all [Part.same]

@[simp] theorem freeCount_peel (s : State) (k : Nat) {l : List Part} {s₀ : State} (h : [Part.freeCount] ⊆ l) :
    OnlyChanges l s₀ { s with freeCount := k } ↔ OnlyChanges l s₀ s := by
  refine OnlyChanges.peel (l := [.freeCount]) ?_ h
  intro p hp; cases p <;> simp_all [Part.same]

@[simp] theorem clock_peel (s : State) (k : Nat) {l : List Part} {s₀ : State} (h : [Part.clock] ⊆ l) :
    OnlyChanges l s₀ { s with clock := k } ↔ OnlyChanges l s₀ s := by
  refine OnlyChanges.peel (l := [.clock]) ?_ h
  intro p hp; cases p <;> simp_all [Part.same]

@[simp] theorem intake_peel (s : State) (k : Intake) {l : List Part} {s₀ : State} (h : [Part.intake] ⊆ l) :
    OnlyChanges l s₀ { s with intake := k } ↔ OnlyChanges l s₀ s := by
  refine OnlyChanges.peel (l := [.intake]) ?_ h
  intro p hp; cases p <;> simp_all [Part.same]

@[simp] theorem gate_peel (s : State) (k i : Nat) {l : List Part} {s₀ : State} (h : [Part.site] ⊆ l) :
    OnlyChanges l s₀ { s with gate := { s.gate with site := k, nextId := i } } ↔ OnlyChanges l s₀ s := by
  refine OnlyChanges.peel (l := [.site]) ?_ h
  intro p hp; cases p <;> simp_all [Part.same]

/-! ### Reports, conditions and the transmitter -/

theorem report_only (s : State) (c : Source) (r : Report) : OnlyChanges [.transmitter] s (s.report c r) := by
  intro p hp
  cases p <;> simp_all [Part.same, Link.report, Link.level] <;> split <;> (try split) <;> simp

@[simp] theorem report_peel (s : State) (c : Source) (r : Report) {l : List Part} {s₀ : State} (h : [Part.transmitter] ⊆ l) :
    OnlyChanges l s₀ (s.report c r) ↔ OnlyChanges l s₀ s := (report_only s c r).peel h

/-- What the taking of a condition's level leaves of the link as it was (R202). -/
theorem Link.setCond_cases (l : Link) (c : Cond) (b : Bool) :
    (Link.setCond l c b).rate = l.rate ∧ (Link.setCond l c b).rx = l.rx ∧ (Link.setCond l c b).requests = l.requests ∧
    (Link.setCond l c b).busy = l.busy ∧ (Link.setCond l c b).tx = l.tx ∧ (Link.setCond l c b).restart = l.restart ∧
    (Link.setCond l c b).restartDue = l.restartDue ∧ (Link.setCond l c b).replyCount = l.replyCount ∧
    (Link.setCond l c b).enables = l.enables ∧ (Link.setCond l c b).rise = l.rise ∧ (Link.setCond l c b).fall = l.fall ∧
    (Link.setCond l c b).discarded = l.discarded := by
  unfold Link.setCond Link.report
  split
  · simp
  · dsimp only
    repeat' split
    all_goals simp

/-- The level a condition is given is its level, and no other condition's level changes (R202). -/
theorem Link.setCond_level (l : Link) (c d : Cond) (b : Bool) :
    Link.level (Link.setCond l c b) d = if d = c then b else Link.level l d := by
  have hd := Cond.number_lt d
  by_cases h : d = c
  · subst h
    rw [if_pos rfl]
    unfold Link.setCond Link.report
    split
    · simp_all
    · dsimp only
      repeat' split
      all_goals simp [Link.level, setFlag_get _ hd]
  · have hn : Cond.number d ≠ Cond.number c := fun e => h (Cond.number_inj e)
    rw [if_neg h]
    unfold Link.setCond Link.report
    split
    · simp_all
    · dsimp only
      repeat' split
      all_goals simp [Link.level, setFlag_get _ hd, hn]

/-- No other condition's latch changes (R202). -/
theorem Link.setCond_latch (l : Link) (c d : Cond) (b : Bool) (h : d ≠ c) :
    (Link.setCond l c b).latch.getLsbD (Cond.number d) = l.latch.getLsbD (Cond.number d) := by
  have hd := Cond.number_lt d
  have hn : Cond.number d ≠ Cond.number c := fun e => h (Cond.number_inj e)
  unfold Link.setCond Link.report
  split
  · rfl
  · dsimp only
    repeat' split
    all_goals simp [setFlag_get _ hd, hn]

theorem setCond_only (s : State) (c : Cond) (b : Bool) :
    OnlyChanges [.level c, .latch c, .transmitter] s (s.setCond c b) := by
  have h := Link.setCond_cases s.link c b
  intro p hp
  cases p <;> simp_all [Part.same, Link.setCond_level, Link.setCond_latch]

@[simp] theorem setCond_peel (s : State) (c : Cond) (b : Bool) {l : List Part} {s₀ : State}
    (h : [.level c, .latch c, .transmitter] ⊆ l) : OnlyChanges l s₀ (s.setCond c b) ↔ OnlyChanges l s₀ s :=
  (setCond_only s c b).peel h

/-- The level of a condition after an owner gives one (R202). -/
@[simp] theorem setCond_level_same (s : State) (c : Cond) (b : Bool) : State.level (s.setCond c b) c = b := by
  simp [State.level, Link.setCond_level]

theorem setCond_level (s : State) (c d : Cond) (b : Bool) :
    State.level (s.setCond c b) d = if d = c then b else State.level s d := by
  simp [State.level, Link.setCond_level]

/-- The transmitter's taking of a frame changes the transmitter and the report queue (R197). -/
theorem Link.kick_cases (l : Link) : ∃ tx queue, Link.kick l = { l with tx := tx, queue := queue } := by
  unfold Link.kick
  repeat' split
  all_goals exact ⟨_, _, rfl⟩

theorem kick_only (s : State) : OnlyChanges [.transmitter] s s.kick := by
  obtain ⟨tx, queue, h⟩ := Link.kick_cases s.link
  intro p hp
  cases p <;> simp_all [Part.same, Link.level]

@[simp] theorem kick_peel (s : State) {l : List Part} {s₀ : State} (h : [Part.transmitter] ⊆ l) :
    OnlyChanges l s₀ s.kick ↔ OnlyChanges l s₀ s := (kick_only s).peel h

end Sys2Proof.Machine
end

