-- ==== Sys2Proof/Laws/FrameOps.lean ====
section
/-! SUPPORT. What each operation of the blocks can change, from the field mixers to the occupancy units. -/

set_option linter.unusedSimpArgs false

namespace Sys2Proof.Machine

/-! ### Program intake and mixers -/

theorem showPresence_only (s : State) (n : Nr) : OnlyChanges (Part.cond (.programPresent n)) s (s.showPresence n) := by
  unfold State.showPresence; (try dsimp only); (repeat' split) <;> simp

@[simp] theorem showPresence_peel (s : State) (n : Nr) {l : List Part} {s₀ : State} (h : (Part.cond (.programPresent n)) ⊆ l) :
    OnlyChanges l s₀ (s.showPresence n) ↔ OnlyChanges l s₀ s := (showPresence_only s n).peel h

theorem applyChange_only (n : Nr) (s : State) : OnlyChanges (.mixer n :: .delay n :: Part.cond (.programPresent n)) s (applyChange n s) := by
  unfold applyChange; (try dsimp only); (repeat' split) <;> simp

@[simp] theorem applyChange_peel (n : Nr) (s : State) {l : List Part} {s₀ : State} (h : (.mixer n :: .delay n :: Part.cond (.programPresent n)) ⊆ l) :
    OnlyChanges l s₀ (applyChange n s) ↔ OnlyChanges l s₀ s := (applyChange_only n s).peel h

theorem applyUnfaded_only (n : Nr) (s : State) : OnlyChanges (.mixer n :: .delay n :: Part.cond (.programPresent n)) s (applyUnfaded n s) := by
  unfold applyUnfaded; (try dsimp only); (repeat' split) <;> simp

@[simp] theorem applyUnfaded_peel (n : Nr) (s : State) {l : List Part} {s₀ : State} (h : (.mixer n :: .delay n :: Part.cond (.programPresent n)) ⊆ l) :
    OnlyChanges l s₀ (applyUnfaded n s) ↔ OnlyChanges l s₀ s := (applyUnfaded_only n s).peel h

theorem fadeStep_only (n : Nr) (s : State) : OnlyChanges (.mixer n :: .delay n :: Part.cond (.programPresent n)) s (fadeStep n s) := by
  unfold fadeStep; (try dsimp only); (repeat' split) <;> simp

@[simp] theorem fadeStep_peel (n : Nr) (s : State) {l : List Part} {s₀ : State} (h : (.mixer n :: .delay n :: Part.cond (.programPresent n)) ⊆ l) :
    OnlyChanges l s₀ (fadeStep n s) ↔ OnlyChanges l s₀ s := (fadeStep_only n s).peel h

theorem storeArrival_only (input : Nr) (f : Frame) (s : State) : OnlyChanges [.delay .one, .delay .two, .delay .three, .delay .four] s (storeArrival input f s) := by
  unfold storeArrival; refine .foldl _ ?_ _ _; intro s n; split <;> cases n <;> simp

@[simp] theorem storeArrival_peel (input : Nr) (f : Frame) (s : State) {l : List Part} {s₀ : State} (h : [.delay .one, .delay .two, .delay .three, .delay .four] ⊆ l) :
    OnlyChanges l s₀ (storeArrival input f s) ↔ OnlyChanges l s₀ s := (storeArrival_only input f s).peel h

theorem showInput_only (input : Nr) (s : State) : OnlyChanges Part.programs s (showInput input s) := by
  unfold showInput; refine .foldl _ ?_ _ _; intro s n; split <;> cases n <;> simp

@[simp] theorem showInput_peel (input : Nr) (s : State) {l : List Part} {s₀ : State} (h : Part.programs ⊆ l) :
    OnlyChanges l s₀ (showInput input s) ↔ OnlyChanges l s₀ s := (showInput_only input s).peel h

theorem fieldInstant_only (live : Int) (n : Nr) (s : State) : OnlyChanges (.delay n :: .mixer n :: .announce :: Part.cond (.clipped n)) s (fieldInstant live n s) := by
  unfold fieldInstant; (try dsimp only); (repeat' split) <;> simp

@[simp] theorem fieldInstant_peel (live : Int) (n : Nr) (s : State) {l : List Part} {s₀ : State} (h : (.delay n :: .mixer n :: .announce :: Part.cond (.clipped n)) ⊆ l) :
    OnlyChanges l s₀ (fieldInstant live n s) ↔ OnlyChanges l s₀ s := (fieldInstant_only live n s).peel h

theorem progArrives_only (input : Nr) (f : Frame) (s : State) : OnlyChanges (.intake :: .delay .one :: .delay .two :: .delay .three :: .delay .four :: Part.programs) s (progArrives input f s) := by
  have hs := storeArrival_only input f s
  unfold progArrives
  generalize storeArrival input f s = t at hs ⊢
  rw [showInput_peel _ _ (by simp)]
  exact (hs.mono (by simp)).trans ((intake_only t _).mono (by simp))

@[simp] theorem progArrives_peel (input : Nr) (f : Frame) (s : State) {l : List Part} {s₀ : State} (h : (.intake :: .delay .one :: .delay .two :: .delay .three :: .delay .four :: Part.programs) ⊆ l) :
    OnlyChanges l s₀ (progArrives input f s) ↔ OnlyChanges l s₀ s := (progArrives_only input f s).peel h

/-! ### Announcements -/

theorem reportAnn_only (s : State) (a : Ann) (m : AnnMark) : OnlyChanges [.transmitter] s (s.reportAnn a m) := by
  unfold State.reportAnn; (try dsimp only); (repeat' split) <;> simp

@[simp] theorem reportAnn_peel (s : State) (a : Ann) (m : AnnMark) {l : List Part} {s₀ : State} (h : [.transmitter] ⊆ l) :
    OnlyChanges l s₀ (s.reportAnn a m) ↔ OnlyChanges l s₀ s := (reportAnn_only s a m).peel h

theorem changeMixers_only (f : Mixer → Mixer) (ns : List Nr) (s : State) : OnlyChanges Part.mixers s (changeMixers f ns s) := by
  unfold changeMixers; refine .foldl _ ?_ _ _; intro s n; cases n <;> simp

@[simp] theorem changeMixers_peel (f : Mixer → Mixer) (ns : List Nr) (s : State) {l : List Part} {s₀ : State} (h : Part.mixers ⊆ l) :
    OnlyChanges l s₀ (changeMixers f ns s) ↔ OnlyChanges l s₀ s := (changeMixers_only f ns s).peel h

theorem stopVoices_only (v : Four Bool) (s : State) : OnlyChanges [.announce] s (stopVoices v s) := by
  unfold stopVoices; (try dsimp only); (repeat' split) <;> simp

@[simp] theorem stopVoices_peel (v : Four Bool) (s : State) {l : List Part} {s₀ : State} (h : [.announce] ⊆ l) :
    OnlyChanges l s₀ (stopVoices v s) ↔ OnlyChanges l s₀ s := (stopVoices_only v s).peel h

theorem cancelLoss_only (a : Ann) (s : State) : OnlyChanges [.announce] s (cancelLoss a s) := by
  unfold cancelLoss; (try dsimp only); (repeat' split) <;> simp

@[simp] theorem cancelLoss_peel (a : Ann) (s : State) {l : List Part} {s₀ : State} (h : [.announce] ⊆ l) :
    OnlyChanges l s₀ (cancelLoss a s) ↔ OnlyChanges l s₀ s := (cancelLoss_only a s).peel h

theorem removeActive_only (a : Ann) (s : State) : OnlyChanges [.announce] s (removeActive a s) := by
  unfold removeActive; (try dsimp only); (repeat' split) <;> simp

@[simp] theorem removeActive_peel (a : Ann) (s : State) {l : List Part} {s₀ : State} (h : [.announce] ⊆ l) :
    OnlyChanges l s₀ (removeActive a s) ↔ OnlyChanges l s₀ s := (removeActive_only a s).peel h

theorem grantAnn_only (a : Ann) (s : State) : OnlyChanges Part.announcing s (grantAnn a s) := by
  unfold grantAnn; (try dsimp only); (repeat' split) <;> simp

@[simp] theorem grantAnn_peel (a : Ann) (s : State) {l : List Part} {s₀ : State} (h : Part.announcing ⊆ l) :
    OnlyChanges l s₀ (grantAnn a s) ↔ OnlyChanges l s₀ s := (grantAnn_only a s).peel h

theorem preemptAnn_only (targets : Four Bool) (b : Ann) (s : State) : OnlyChanges Part.announcing s (preemptAnn targets b s) := by
  unfold preemptAnn; (try dsimp only); (repeat' split) <;> simp

@[simp] theorem preemptAnn_peel (targets : Four Bool) (b : Ann) (s : State) {l : List Part} {s₀ : State} (h : Part.announcing ⊆ l) :
    OnlyChanges l s₀ (preemptAnn targets b s) ↔ OnlyChanges l s₀ s := (preemptAnn_only targets b s).peel h

theorem visitAnn_only (s : State) (a : Ann) : OnlyChanges Part.announcing s (visitAnn s a) := by
  have h := fun (xs : List Ann) (v : Four Bool) (s₀ t : State) =>
    OnlyChanges.foldl_peel (fun t b => preemptAnn v b t) (fun s x => preemptAnn_only v x s) xs s₀ t
  unfold visitAnn; dsimp only; (repeat' split) <;> simp [h]

@[simp] theorem visitAnn_peel (s : State) (b : Ann) {l : List Part} {s₀ : State} (h : Part.announcing ⊆ l) :
    OnlyChanges l s₀ (visitAnn s b) ↔ OnlyChanges l s₀ s := (visitAnn_only s b).peel h

theorem grantTest_only (s : State) : OnlyChanges Part.announcing s (grantTest s) := by
  exact .foldl _ visitAnn_only _ _

@[simp] theorem grantTest_peel (s : State) {l : List Part} {s₀ : State} (h : Part.announcing ⊆ l) :
    OnlyChanges l s₀ (grantTest s) ↔ OnlyChanges l s₀ s := (grantTest_only s).peel h

theorem makeAnn_only (kind : AnnKind) (pattern : Nat) (targets : Four Bool) (priority maxDuration : Nat) (origin : Origin) (s : State) : OnlyChanges Part.announcing s (makeAnn kind pattern targets priority maxDuration origin s).1 := by
  unfold makeAnn; (try dsimp only); (repeat' split) <;> simp

@[simp] theorem makeAnn_peel (kind : AnnKind) (pattern : Nat) (targets : Four Bool) (priority maxDuration : Nat) (origin : Origin) (s : State) {l : List Part} {s₀ : State} (h : Part.announcing ⊆ l) :
    OnlyChanges l s₀ (makeAnn kind pattern targets priority maxDuration origin s).1 ↔ OnlyChanges l s₀ s := (makeAnn_only kind pattern targets priority maxDuration origin s).peel h

theorem timelineChime_only (n : Nr) (pattern priority : Nat) (origin : Origin) (s : State) : OnlyChanges Part.announcing s (timelineChime n pattern priority origin s) := by
  unfold timelineChime; (try dsimp only); (repeat' split) <;> simp

@[simp] theorem timelineChime_peel (n : Nr) (pattern priority : Nat) (origin : Origin) (s : State) {l : List Part} {s₀ : State} (h : Part.announcing ⊆ l) :
    OnlyChanges l s₀ (timelineChime n pattern priority origin s) ↔ OnlyChanges l s₀ s := (timelineChime_only n pattern priority origin s).peel h

theorem enterChime_only (a : Ann) (s : State) : OnlyChanges [.announce, .transmitter] s (enterChime a s) := by
  unfold enterChime; (try dsimp only); (repeat' split) <;> simp

@[simp] theorem enterChime_peel (a : Ann) (s : State) {l : List Part} {s₀ : State} (h : [.announce, .transmitter] ⊆ l) :
    OnlyChanges l s₀ (enterChime a s) ↔ OnlyChanges l s₀ s := (enterChime_only a s).peel h

theorem enterLive_only (a : Ann) (s : State) : OnlyChanges [.announce, .transmitter] s (enterLive a s) := by
  unfold enterLive; (try dsimp only); (repeat' split) <;> simp

@[simp] theorem enterLive_peel (a : Ann) (s : State) {l : List Part} {s₀ : State} (h : [.announce, .transmitter] ⊆ l) :
    OnlyChanges l s₀ (enterLive a s) ↔ OnlyChanges l s₀ s := (enterLive_only a s).peel h

theorem releaseAnn_only (a : Ann) (reason : AnnReason) (s : State) : OnlyChanges Part.announcing s (releaseAnn a reason s) := by
  unfold releaseAnn; (try dsimp only); (repeat' split) <;> simp

@[simp] theorem releaseAnn_peel (a : Ann) (reason : AnnReason) (s : State) {l : List Part} {s₀ : State} (h : Part.announcing ⊆ l) :
    OnlyChanges l s₀ (releaseAnn a reason s) ↔ OnlyChanges l s₀ s := (releaseAnn_only a reason s).peel h

theorem duckedNotice_only (n : Nr) (s : State) : OnlyChanges [.announce, .transmitter] s (duckedNotice n s) := by
  unfold duckedNotice; (try dsimp only); (repeat' split) <;> simp

@[simp] theorem duckedNotice_peel (n : Nr) (s : State) {l : List Part} {s₀ : State} (h : [.announce, .transmitter] ⊆ l) :
    OnlyChanges l s₀ (duckedNotice n s) ↔ OnlyChanges l s₀ s := (duckedNotice_only n s).peel h

theorem beginVoice_only (n : Nr) (s : State) : OnlyChanges [.announce] s (beginVoice n s) := by
  unfold beginVoice; (try dsimp only); (repeat' split) <;> simp

@[simp] theorem beginVoice_peel (n : Nr) (s : State) {l : List Part} {s₀ : State} (h : [.announce] ⊆ l) :
    OnlyChanges l s₀ (beginVoice n s) ↔ OnlyChanges l s₀ s := (beginVoice_only n s).peel h

theorem voiceFinished_only (n : Nr) (s : State) : OnlyChanges Part.announcing s (voiceFinished n s) := by
  unfold voiceFinished; (try dsimp only); (repeat' split) <;> simp

@[simp] theorem voiceFinished_peel (n : Nr) (s : State) {l : List Part} {s₀ : State} (h : Part.announcing ⊆ l) :
    OnlyChanges l s₀ (voiceFinished n s) ↔ OnlyChanges l s₀ s := (voiceFinished_only n s).peel h

theorem voiceEnds_only (n : Nr) (s : State) : OnlyChanges Part.announcing s (voiceEnds n s) := by
  unfold voiceEnds; (try dsimp only); (repeat' split) <;> simp

@[simp] theorem voiceEnds_peel (n : Nr) (s : State) {l : List Part} {s₀ : State} (h : Part.announcing ⊆ l) :
    OnlyChanges l s₀ (voiceEnds n s) ↔ OnlyChanges l s₀ s := (voiceEnds_only n s).peel h

theorem noteEnds_only (n : Nr) (s : State) : OnlyChanges [.announce] s (noteEnds n s) := by
  unfold noteEnds; (try dsimp only); (repeat' split) <;> simp

@[simp] theorem noteEnds_peel (n : Nr) (s : State) {l : List Part} {s₀ : State} (h : [.announce] ⊆ l) :
    OnlyChanges l s₀ (noteEnds n s) ↔ OnlyChanges l s₀ s := (noteEnds_only n s).peel h

theorem durationExpires_only (id : Nat) (s : State) : OnlyChanges (.clock :: Part.announcing) s (durationExpires id s) := by
  unfold durationExpires; (try dsimp only); (repeat' split) <;> simp

@[simp] theorem durationExpires_peel (id : Nat) (s : State) {l : List Part} {s₀ : State} (h : (.clock :: Part.announcing) ⊆ l) :
    OnlyChanges l s₀ (durationExpires id s) ↔ OnlyChanges l s₀ s := (durationExpires_only id s).peel h

theorem lossExpires_only (s : State) : OnlyChanges (.clock :: Part.announcing) s (lossExpires s) := by
  unfold lossExpires; (try dsimp only); (repeat' split) <;> simp

@[simp] theorem lossExpires_peel (s : State) {l : List Part} {s₀ : State} (h : (.clock :: Part.announcing) ⊆ l) :
    OnlyChanges l s₀ (lossExpires s) ↔ OnlyChanges l s₀ s := (lossExpires_only s).peel h

theorem annArrives_only (sample : Sample) (s : State) : OnlyChanges (.intake :: .announce :: Part.cond .announceSourcePresent) s (annArrives sample s) := by
  unfold annArrives
  extract_lets i t u
  have hu : OnlyChanges (.intake :: .announce :: Part.cond .announceSourcePresent) s u :=
    ((intake_only s _).mono (by simp)).trans ((setCond_only t _ _).mono (by simp))
  split
  · exact hu
  · exact hu.trans ((setAnnounce_only u _).mono (by simp))

@[simp] theorem annArrives_peel (sample : Sample) (s : State) {l : List Part} {s₀ : State} (h : (.intake :: .announce :: Part.cond .announceSourcePresent) ⊆ l) :
    OnlyChanges l s₀ (annArrives sample s) ↔ OnlyChanges l s₀ s := (annArrives_only sample s).peel h

theorem silenceExpires_only (input : Input) (s : State) : OnlyChanges (.intake :: .announce :: (Part.cond .announceSourcePresent ++ Part.programs)) s (silenceExpires input s) := by
  unfold silenceExpires
  split
  · split
    · exact ((intake_only s _).mono (by simp)).trans ((showInput_only _ _).mono (by simp))
    · extract_lets i t u
      have hu : OnlyChanges (.intake :: .announce :: (Part.cond .announceSourcePresent ++ Part.programs)) s u :=
        ((intake_only s _).mono (by simp)).trans ((setCond_only t _ _).mono (by simp))
      split
      · exact hu
      · exact hu.trans ((setAnnounce_only u _).mono (by simp))
  · exact .refl _ _

@[simp] theorem silenceExpires_peel (input : Input) (s : State) {l : List Part} {s₀ : State} (h : (.intake :: .announce :: (Part.cond .announceSourcePresent ++ Part.programs)) ⊆ l) :
    OnlyChanges l s₀ (silenceExpires input s) ↔ OnlyChanges l s₀ s := (silenceExpires_only input s).peel h

/-! ### Down queues and notices -/

theorem enterDown_only (s : State) (n : Nr) (address : Nat) (msg : DownMsg) (source : DownSource) : OnlyChanges [.post n] s (s.enterDown n address msg source) := by
  unfold State.enterDown; simp

@[simp] theorem enterDown_peel (s : State) (n : Nr) (address : Nat) (msg : DownMsg) (source : DownSource) {l : List Part} {s₀ : State} (h : [.post n] ⊆ l) :
    OnlyChanges l s₀ (s.enterDown n address msg source) ↔ OnlyChanges l s₀ s := (enterDown_only s n address msg source).peel h

theorem offerDown_only (n : Nr) (address : Nat) (msg : DownMsg) (number : Nat) (s : State) : OnlyChanges [.post n] s (offerDown n address msg number s).1 := by
  unfold offerDown; (try dsimp only); (repeat' split) <;> simp

@[simp] theorem offerDown_peel (n : Nr) (address : Nat) (msg : DownMsg) (number : Nat) (s : State) {l : List Part} {s₀ : State} (h : [.post n] ⊆ l) :
    OnlyChanges l s₀ (offerDown n address msg number s).1 ↔ OnlyChanges l s₀ s := (offerDown_only n address msg number s).peel h

theorem removeEntry_only (n : Nr) (number : Nat) (s : State) : OnlyChanges [.post n] s (removeEntry n number s) := by
  unfold removeEntry; (try dsimp only); (repeat' split) <;> simp

@[simp] theorem removeEntry_peel (n : Nr) (number : Nat) (s : State) {l : List Part} {s₀ : State} (h : [.post n] ⊆ l) :
    OnlyChanges l s₀ (removeEntry n number s) ↔ OnlyChanges l s₀ s := (removeEntry_only n number s).peel h

theorem setOrder_only (s : State) (o : Order) : OnlyChanges [.orders] s (s.setOrder o) := by
  unfold State.setOrder; simp

@[simp] theorem setOrder_peel (s : State) (o : Order) {l : List Part} {s₀ : State} (h : [.orders] ⊆ l) :
    OnlyChanges l s₀ (s.setOrder o) ↔ OnlyChanges l s₀ s := (setOrder_only s o).peel h

theorem decideSaturated_only (s : State) : OnlyChanges (Part.cond .kitchenSaturated) s (decideSaturated s) := by
  unfold decideSaturated; (try dsimp only); (repeat' split) <;> simp

@[simp] theorem decideSaturated_peel (s : State) {l : List Part} {s₀ : State} (h : (Part.cond .kitchenSaturated) ⊆ l) :
    OnlyChanges l s₀ (decideSaturated s) ↔ OnlyChanges l s₀ s := (decideSaturated_only s).peel h

theorem addWork_only (work : Four Nat) (s : State) : OnlyChanges (.orders :: Part.cond .kitchenSaturated) s (addWork work s) := by
  unfold addWork; (try dsimp only); (repeat' split) <;> simp

@[simp] theorem addWork_peel (work : Four Nat) (s : State) {l : List Part} {s₀ : State} (h : (.orders :: Part.cond .kitchenSaturated) ⊆ l) :
    OnlyChanges l s₀ (addWork work s) ↔ OnlyChanges l s₀ s := (addWork_only work s).peel h

theorem subWork_only (work : Four Nat) (s : State) : OnlyChanges (.orders :: Part.cond .kitchenSaturated) s (subWork work s) := by
  unfold subWork; (try dsimp only); (repeat' split) <;> simp

@[simp] theorem subWork_peel (work : Four Nat) (s : State) {l : List Part} {s₀ : State} (h : (.orders :: Part.cond .kitchenSaturated) ⊆ l) :
    OnlyChanges l s₀ (subWork work s) ↔ OnlyChanges l s₀ s := (subWork_only work s).peel h

theorem setOrdering_only (n : Nr) (isOpen : Bool) (s : State) : OnlyChanges (.orders :: Part.cond (.orderingOpen n)) s (setOrdering n isOpen s) := by
  unfold setOrdering; (try dsimp only); (repeat' split) <;> simp

@[simp] theorem setOrdering_peel (n : Nr) (isOpen : Bool) (s : State) {l : List Part} {s₀ : State} (h : (.orders :: Part.cond (.orderingOpen n)) ⊆ l) :
    OnlyChanges l s₀ (setOrdering n isOpen s) ↔ OnlyChanges l s₀ s := (setOrdering_only n isOpen s).peel h

theorem offerOwed_only (number : Nat) (s : State) : OnlyChanges Part.notices s (offerOwed number s) := by
  unfold offerOwed; (try dsimp only); (repeat' split) <;> simp

@[simp] theorem offerOwed_peel (number : Nat) (s : State) {l : List Part} {s₀ : State} (h : Part.notices ⊆ l) :
    OnlyChanges l s₀ (offerOwed number s) ↔ OnlyChanges l s₀ s := (offerOwed_only number s).peel h

theorem makeOwed_only (number : Nat) (status : NoticeStatus) (s : State) : OnlyChanges Part.notices s (makeOwed number status s) := by
  unfold makeOwed; (try dsimp only); (repeat' split) <;> simp

@[simp] theorem makeOwed_peel (number : Nat) (status : NoticeStatus) (s : State) {l : List Part} {s₀ : State} (h : Part.notices ⊆ l) :
    OnlyChanges l s₀ (makeOwed number status s) ↔ OnlyChanges l s₀ s := (makeOwed_only number status s).peel h

theorem oneShot_only (field : Nr) (post : Nat) (msg : DownMsg) (number : Nat) (s : State) : OnlyChanges [.post field] s (oneShot field post msg number s) := by
  unfold oneShot; (try dsimp only); (repeat' split) <;> simp

@[simp] theorem oneShot_peel (field : Nr) (post : Nat) (msg : DownMsg) (number : Nat) (s : State) {l : List Part} {s₀ : State} (h : [.post field] ⊆ l) :
    OnlyChanges l s₀ (oneShot field post msg number s) ↔ OnlyChanges l s₀ s := (oneShot_only field post msg number s).peel h

theorem offerAll_only (numbers : List Nat) (s : State) : OnlyChanges Part.notices s (offerAll numbers s) := by
  exact .foldl _ (fun s k => offerOwed_only k s) _ _

@[simp] theorem offerAll_peel (numbers : List Nat) (s : State) {l : List Part} {s₀ : State} (h : Part.notices ⊆ l) :
    OnlyChanges l s₀ (offerAll numbers s) ↔ OnlyChanges l s₀ s := (offerAll_only numbers s).peel h

theorem placeFree_only (n : Nr) (s : State) : OnlyChanges Part.notices s (placeFree n s) := by
  unfold placeFree; (try dsimp only); (repeat' split) <;> simp

@[simp] theorem placeFree_peel (n : Nr) (s : State) {l : List Part} {s₀ : State} (h : Part.notices ⊆ l) :
    OnlyChanges l s₀ (placeFree n s) ↔ OnlyChanges l s₀ s := (placeFree_only n s).peel h

theorem postReturned_only (n : Nr) (address : Nat) (s : State) : OnlyChanges Part.notices s (postReturned n address s) := by
  unfold postReturned; (try dsimp only); (repeat' split) <;> simp

@[simp] theorem postReturned_peel (n : Nr) (address : Nat) (s : State) {l : List Part} {s₀ : State} (h : Part.notices ⊆ l) :
    OnlyChanges l s₀ (postReturned n address s) ↔ OnlyChanges l s₀ s := (postReturned_only n address s).peel h

theorem noticeDropped_only (n : Nr) (e : DownEntry) (s : State) : OnlyChanges Part.notices s (noticeDropped n e s) := by
  unfold noticeDropped; (try dsimp only); (repeat' split) <;> simp

@[simp] theorem noticeDropped_peel (n : Nr) (e : DownEntry) (s : State) {l : List Part} {s₀ : State} (h : Part.notices ⊆ l) :
    OnlyChanges l s₀ (noticeDropped n e s) ↔ OnlyChanges l s₀ s := (noticeDropped_only n e s).peel h

theorem dropEntry_only (n : Nr) (reason : DropReason) (e : DownEntry) (s : State) : OnlyChanges (.transmitter :: Part.notices) s (dropEntry n reason e s) := by
  unfold dropEntry; simp

@[simp] theorem dropEntry_peel (n : Nr) (reason : DropReason) (e : DownEntry) (s : State) {l : List Part} {s₀ : State} (h : (.transmitter :: Part.notices) ⊆ l) :
    OnlyChanges l s₀ (dropEntry n reason e s) ↔ OnlyChanges l s₀ s := (dropEntry_only n reason e s).peel h

theorem reportNew_only (o : Order) (s : State) : OnlyChanges [.transmitter] s (reportNew o s) := by
  unfold reportNew; (try dsimp only); (repeat' split) <;> simp

@[simp] theorem reportNew_peel (o : Order) (s : State) {l : List Part} {s₀ : State} (h : [.transmitter] ⊆ l) :
    OnlyChanges l s₀ (reportNew o s) ↔ OnlyChanges l s₀ s := (reportNew_only o s).peel h

theorem releaseOrder_only (o : Order) (s : State) : OnlyChanges Part.kitchen s (releaseOrder o s) := by
  unfold releaseOrder; simp

@[simp] theorem releaseOrder_peel (o : Order) (s : State) {l : List Part} {s₀ : State} (h : Part.kitchen ⊆ l) :
    OnlyChanges l s₀ (releaseOrder o s) ↔ OnlyChanges l s₀ s := (releaseOrder_only o s).peel h

theorem releaseDeferred_only (n : Nr) (s : State) : OnlyChanges Part.kitchen s (releaseDeferred n s) := by
  exact .foldl _ (fun s o => releaseOrder_only o s) _ _

@[simp] theorem releaseDeferred_peel (n : Nr) (s : State) {l : List Part} {s₀ : State} (h : Part.kitchen ⊆ l) :
    OnlyChanges l s₀ (releaseDeferred n s) ↔ OnlyChanges l s₀ s := (releaseDeferred_only n s).peel h

theorem endNotice_only (o : Order) (reason : EndReason) (booth : Option BoothReason) (s : State) : OnlyChanges [.post o.field] s (endNotice o reason booth s) := by
  unfold endNotice; (try dsimp only); (repeat' split) <;> simp

@[simp] theorem endNotice_peel (o : Order) (reason : EndReason) (booth : Option BoothReason) (s : State) {l : List Part} {s₀ : State} (h : [.post o.field] ⊆ l) :
    OnlyChanges l s₀ (endNotice o reason booth s) ↔ OnlyChanges l s₀ s := (endNotice_only o reason booth s).peel h

theorem endOrder_only (o : Order) (reason : EndReason) (booth : Option BoothReason) (s : State) : OnlyChanges Part.kitchen s (endOrder o reason booth s) := by
  unfold endOrder; dsimp only; split <;> simp

@[simp] theorem endOrder_peel (o : Order) (reason : EndReason) (booth : Option BoothReason) (s : State) {l : List Part} {s₀ : State} (h : Part.kitchen ⊆ l) :
    OnlyChanges l s₀ (endOrder o reason booth s) ↔ OnlyChanges l s₀ s := (endOrder_only o reason booth s).peel h

theorem bayTold_only (n : Nr) (address : Nat) (s : State) : OnlyChanges [.orders] s (bayTold n address s) := by
  unfold bayTold; (try dsimp only); (repeat' split) <;> simp

@[simp] theorem bayTold_peel (n : Nr) (address : Nat) (s : State) {l : List Part} {s₀ : State} (h : [.orders] ⊆ l) :
    OnlyChanges l s₀ (bayTold n address s) ↔ OnlyChanges l s₀ s := (bayTold_only n address s).peel h

/-! ### Timelines and booth lines -/

theorem setHold_only (s : State) (n : Nr) (b : Level) : OnlyChanges [.output n] s (s.setHold n b) := by
  unfold State.setHold; simp

@[simp] theorem setHold_peel (s : State) (n : Nr) (b : Level) {l : List Part} {s₀ : State} (h : [.output n] ⊆ l) :
    OnlyChanges l s₀ (s.setHold n b) ↔ OnlyChanges l s₀ s := (setHold_only s n b).peel h

theorem setBoothLine_only (s : State) (n : Nr) (line : BoothLine) (r : LineRec) : OnlyChanges [.output n] s (s.setBoothLine n line r) := by
  unfold State.setBoothLine; simp

@[simp] theorem setBoothLine_peel (s : State) (n : Nr) (line : BoothLine) (r : LineRec) {l : List Part} {s₀ : State} (h : [.output n] ⊆ l) :
    OnlyChanges l s₀ (s.setBoothLine n line r) ↔ OnlyChanges l s₀ s := (setBoothLine_only s n line r).peel h

theorem pulseDelayExpires_only (n : Nr) (line : BoothLine) (s : State) : OnlyChanges [.clock, .output n] s (pulseDelayExpires n line s) := by
  unfold pulseDelayExpires; (try dsimp only); (repeat' split) <;> simp

@[simp] theorem pulseDelayExpires_peel (n : Nr) (line : BoothLine) (s : State) {l : List Part} {s₀ : State} (h : [.clock, .output n] ⊆ l) :
    OnlyChanges l s₀ (pulseDelayExpires n line s) ↔ OnlyChanges l s₀ s := (pulseDelayExpires_only n line s).peel h

theorem pulseWidthExpires_only (n : Nr) (line : BoothLine) (s : State) : OnlyChanges [.clock, .output n] s (pulseWidthExpires n line s) := by
  unfold pulseWidthExpires; (try dsimp only); (repeat' split) <;> simp

@[simp] theorem pulseWidthExpires_peel (n : Nr) (line : BoothLine) (s : State) {l : List Part} {s₀ : State} (h : [.clock, .output n] ⊆ l) :
    OnlyChanges l s₀ (pulseWidthExpires n line s) ↔ OnlyChanges l s₀ s := (pulseWidthExpires_only n line s).peel h

theorem blinkExpires_only (n : Nr) (line : BoothLine) (s : State) : OnlyChanges [.clock, .output n] s (blinkExpires n line s) := by
  unfold blinkExpires; (try dsimp only); (repeat' split) <;> simp

@[simp] theorem blinkExpires_peel (n : Nr) (line : BoothLine) (s : State) {l : List Part} {s₀ : State} (h : [.clock, .output n] ⊆ l) :
    OnlyChanges l s₀ (blinkExpires n line s) ↔ OnlyChanges l s₀ s := (blinkExpires_only n line s).peel h

theorem setShow_only (n : Nr) (new : ShowState) (cause : ShowCause) (s : State) : OnlyChanges [.screen n, .transmitter] s (setShow n new cause s) := by
  unfold setShow; (try dsimp only); (repeat' split) <;> simp

@[simp] theorem setShow_peel (n : Nr) (new : ShowState) (cause : ShowCause) (s : State) {l : List Part} {s₀ : State} (h : [.screen n, .transmitter] ⊆ l) :
    OnlyChanges l s₀ (setShow n new cause s) ↔ OnlyChanges l s₀ s := (setShow_only n new cause s).peel h

theorem changeShow_only (n : Nr) (new : ShowState) (s : State) : OnlyChanges [.screen n, .transmitter] s (changeShow n new s) := by
  unfold changeShow; (try dsimp only); (repeat' split) <;> simp

@[simp] theorem changeShow_peel (n : Nr) (new : ShowState) (s : State) {l : List Part} {s₀ : State} (h : [.screen n, .transmitter] ⊆ l) :
    OnlyChanges l s₀ (changeShow n new s) ↔ OnlyChanges l s₀ s := (changeShow_only n new s).peel h

theorem leaveRunning_only (n : Nr) (s : State) : OnlyChanges (.screen n :: Part.cond (.projectionStalled n)) s (leaveRunning n s) := by
  unfold leaveRunning; (try dsimp only); (repeat' split) <;> simp

@[simp] theorem leaveRunning_peel (n : Nr) (s : State) {l : List Part} {s₀ : State} (h : (.screen n :: Part.cond (.projectionStalled n)) ⊆ l) :
    OnlyChanges l s₀ (leaveRunning n s) ↔ OnlyChanges l s₀ s := (leaveRunning_only n s).peel h

theorem startStall_only (n : Nr) (s : State) : OnlyChanges [.screen n] s (startStall n s) := by
  unfold startStall; (try dsimp only); (repeat' split) <;> simp

@[simp] theorem startStall_peel (n : Nr) (s : State) {l : List Part} {s₀ : State} (h : [.screen n] ⊆ l) :
    OnlyChanges l s₀ (startStall n s) ↔ OnlyChanges l s₀ s := (startStall_only n s).peel h

theorem releaseTest_only (n : Nr) (s : State) : OnlyChanges Part.kitchen s (releaseTest n s) := by
  unfold releaseTest; (try dsimp only); (repeat' split) <;> simp

@[simp] theorem releaseTest_peel (n : Nr) (s : State) {l : List Part} {s₀ : State} (h : Part.kitchen ⊆ l) :
    OnlyChanges l s₀ (releaseTest n s) ↔ OnlyChanges l s₀ s := (releaseTest_only n s).peel h

theorem endShow_only (n : Nr) (cause : ShowCause) (s : State) : OnlyChanges (Part.showing n) s (endShow n cause s) := by
  unfold endShow; (try dsimp only); (repeat' split) <;> simp

@[simp] theorem endShow_peel (n : Nr) (cause : ShowCause) (s : State) {l : List Part} {s₀ : State} (h : (Part.showing n) ⊆ l) :
    OnlyChanges l s₀ (endShow n cause s) ↔ OnlyChanges l s₀ s := (endShow_only n cause s).peel h

theorem reportFired_only (n : Nr) (c : Cue) (outcome : Option CueOutcome) (s : State) : OnlyChanges [.transmitter] s (reportFired n c outcome s) := by
  unfold reportFired; (try dsimp only); (repeat' split) <;> simp

@[simp] theorem reportFired_peel (n : Nr) (c : Cue) (outcome : Option CueOutcome) (s : State) {l : List Part} {s₀ : State} (h : [.transmitter] ⊆ l) :
    OnlyChanges l s₀ (reportFired n c outcome s) ↔ OnlyChanges l s₀ s := (reportFired_only n c outcome s).peel h

theorem chimeIfSet_only (n : Nr) (pattern priority : Nat) (origin : Origin) (s : State) : OnlyChanges Part.announcing s (chimeIfSet n pattern priority origin s) := by
  unfold chimeIfSet; (try dsimp only); (repeat' split) <;> simp

@[simp] theorem chimeIfSet_peel (n : Nr) (pattern priority : Nat) (origin : Origin) (s : State) {l : List Part} {s₀ : State} (h : Part.announcing ⊆ l) :
    OnlyChanges l s₀ (chimeIfSet n pattern priority origin s) ↔ OnlyChanges l s₀ s := (chimeIfSet_only n pattern priority origin s).peel h

theorem beginHold_only (n : Nr) (c : Cue) (s : State) : OnlyChanges (Part.showing n) s (beginHold n c s) := by
  unfold beginHold; (try dsimp only); (repeat' split) <;> simp

@[simp] theorem beginHold_peel (n : Nr) (c : Cue) (s : State) {l : List Part} {s₀ : State} (h : (Part.showing n) ⊆ l) :
    OnlyChanges l s₀ (beginHold n c s) ↔ OnlyChanges l s₀ s := (beginHold_only n c s).peel h

theorem carryOut_only (n : Nr) (c : Cue) (s : State) : OnlyChanges (Part.showing n) s (carryOut n c s) := by
  unfold carryOut; (try dsimp only); (repeat' split) <;> simp

@[simp] theorem carryOut_peel (n : Nr) (c : Cue) (s : State) {l : List Part} {s₀ : State} (h : (Part.showing n) ⊆ l) :
    OnlyChanges l s₀ (carryOut n c s) ↔ OnlyChanges l s₀ s := (carryOut_only n c s).peel h

theorem visitCue_only (n : Nr) (s : State) (c : Cue) : OnlyChanges (Part.showing n) s (visitCue n s c) := by
  unfold visitCue; (try dsimp only); (repeat' split) <;> simp

@[simp] theorem visitCue_peel (n : Nr) (s : State) (c : Cue) {l : List Part} {s₀ : State} (h : (Part.showing n) ⊆ l) :
    OnlyChanges l s₀ (visitCue n s c) ↔ OnlyChanges l s₀ s := (visitCue_only n s c).peel h

theorem firePass_only (n : Nr) (s : State) : OnlyChanges (Part.showing n) s (firePass n s) := by
  have h := OnlyChanges.foldl (visitCue n) (fun s c => visitCue_only n s c) (s.screens.get n).cues s
  unfold firePass; dsimp only; split
  · exact h.trans (endShow_only n _ _)
  · exact h

@[simp] theorem firePass_peel (n : Nr) (s : State) {l : List Part} {s₀ : State} (h : (Part.showing n) ⊆ l) :
    OnlyChanges l s₀ (firePass n s) ↔ OnlyChanges l s₀ s := (firePass_only n s).peel h

theorem runShow_only (n : Nr) (s : State) : OnlyChanges (Part.showing n) s (runShow n s) := by
  unfold runShow; (try dsimp only); (repeat' split) <;> simp

@[simp] theorem runShow_peel (n : Nr) (s : State) {l : List Part} {s₀ : State} (h : (Part.showing n) ⊆ l) :
    OnlyChanges l s₀ (runShow n s) ↔ OnlyChanges l s₀ s := (runShow_only n s).peel h

theorem dropHold_only (n : Nr) (reason : HoldReason) (s : State) : OnlyChanges (Part.showing n) s (dropHold n reason s) := by
  unfold dropHold; (try dsimp only); (repeat' split) <;> simp

@[simp] theorem dropHold_peel (n : Nr) (reason : HoldReason) (s : State) {l : List Part} {s₀ : State} (h : (Part.showing n) ⊆ l) :
    OnlyChanges l s₀ (dropHold n reason s) ↔ OnlyChanges l s₀ s := (dropHold_only n reason s).peel h

theorem endHold_only (n : Nr) (reason : HoldReason) (s : State) : OnlyChanges (Part.showing n) s (endHold n reason s) := by
  unfold endHold; (try dsimp only); (repeat' split) <;> simp

@[simp] theorem endHold_peel (n : Nr) (reason : HoldReason) (s : State) {l : List Part} {s₀ : State} (h : (Part.showing n) ⊆ l) :
    OnlyChanges l s₀ (endHold n reason s) ↔ OnlyChanges l s₀ s := (endHold_only n reason s).peel h

theorem countTold_only (n : Nr) (s : State) : OnlyChanges (Part.showing n) s (countTold n s) := by
  unfold countTold; (try dsimp only); (repeat' split) <;> simp

@[simp] theorem countTold_peel (n : Nr) (s : State) {l : List Part} {s₀ : State} (h : (Part.showing n) ⊆ l) :
    OnlyChanges l s₀ (countTold n s) ↔ OnlyChanges l s₀ s := (countTold_only n s).peel h

theorem frameTaken_only (n : Nr) (s : State) : OnlyChanges (Part.showing n) s (frameTaken n s) := by
  unfold frameTaken; (try dsimp only); (repeat' split) <;> simp

@[simp] theorem frameTaken_peel (n : Nr) (s : State) {l : List Part} {s₀ : State} (h : (Part.showing n) ⊆ l) :
    OnlyChanges l s₀ (frameTaken n s) ↔ OnlyChanges l s₀ s := (frameTaken_only n s).peel h

theorem frameSample_only (n : Nr) (s : State) (high : Bool) : OnlyChanges (Part.showing n) s (frameSample n s high) := by
  unfold frameSample; (try dsimp only); (repeat' split) <;> simp

@[simp] theorem frameSample_peel (n : Nr) (s : State) (high : Bool) {l : List Part} {s₀ : State} (h : (Part.showing n) ⊆ l) :
    OnlyChanges l s₀ (frameSample n s high) ↔ OnlyChanges l s₀ s := (frameSample_only n s high).peel h

theorem stallExpires_only (n : Nr) (s : State) : OnlyChanges (.clock :: .screen n :: Part.cond (.projectionStalled n)) s (stallExpires n s) := by
  unfold stallExpires; (try dsimp only); (repeat' split) <;> simp

@[simp] theorem stallExpires_peel (n : Nr) (s : State) {l : List Part} {s₀ : State} (h : (.clock :: .screen n :: Part.cond (.projectionStalled n)) ⊆ l) :
    OnlyChanges l s₀ (stallExpires n s) ↔ OnlyChanges l s₀ s := (stallExpires_only n s).peel h

theorem maxHoldExpires_only (n : Nr) (s : State) : OnlyChanges (.clock :: Part.showing n) s (maxHoldExpires n s) := by
  unfold maxHoldExpires; (try dsimp only); (repeat' split) <;> simp

@[simp] theorem maxHoldExpires_peel (n : Nr) (s : State) {l : List Part} {s₀ : State} (h : (.clock :: Part.showing n) ⊆ l) :
    OnlyChanges l s₀ (maxHoldExpires n s) ↔ OnlyChanges l s₀ s := (maxHoldExpires_only n s).peel h

/-! ### Occupancy -/

theorem decideFull_only (n : Nr) (s : State) : OnlyChanges (.field n :: Part.cond (.fieldFull n)) s (decideFull n s) := by
  unfold decideFull; (try dsimp only); (repeat' split) <;> simp

@[simp] theorem decideFull_peel (n : Nr) (s : State) {l : List Part} {s₀ : State} (h : (.field n :: Part.cond (.fieldFull n)) ⊆ l) :
    OnlyChanges l s₀ (decideFull n s) ↔ OnlyChanges l s₀ s := (decideFull_only n s).peel h

theorem tellCount_only (n : Nr) (before : Nat) (s : State) : OnlyChanges (Part.showing n) s (tellCount n before s) := by
  unfold tellCount; (try dsimp only); (repeat' split) <;> simp

@[simp] theorem tellCount_peel (n : Nr) (before : Nat) (s : State) {l : List Part} {s₀ : State} (h : (Part.showing n) ⊆ l) :
    OnlyChanges l s₀ (tellCount n before s) ↔ OnlyChanges l s₀ s := (tellCount_only n before s).peel h

theorem postsChanged_only (n : Nr) (seatings : Nat) (s : State) : OnlyChanges (Part.counting n) s (postsChanged n seatings s) := by
  unfold postsChanged; (try dsimp only); (repeat' split) <;> simp

@[simp] theorem postsChanged_peel (n : Nr) (seatings : Nat) (s : State) {l : List Part} {s₀ : State} (h : (Part.counting n) ⊆ l) :
    OnlyChanges l s₀ (postsChanged n seatings s) ↔ OnlyChanges l s₀ s := (postsChanged_only n seatings s).peel h

/-- A change of the post table that is no seating event leaves the inbound list, and tells the timeline of nothing (R157). -/
theorem postsChanged_zero (n : Nr) (s : State) :
    postsChanged n 0 s = decideFull n (s.setField n { s.fields.get n with
      capacity := capacityOf (s.posts.get n), seated := seatedOf (s.posts.get n) }) := by
  simp [postsChanged, tellCount, inboundCount, decideFull]

theorem postsChanged_zero_only (n : Nr) (s : State) : OnlyChanges (.field n :: Part.cond (.fieldFull n)) s (postsChanged n 0 s) := by
  rw [postsChanged_zero]; simp

@[simp] theorem postsChanged_zero_peel (n : Nr) (s : State) {l : List Part} {s₀ : State}
    (h : (.field n :: Part.cond (.fieldFull n)) ⊆ l) : OnlyChanges l s₀ (postsChanged n 0 s) ↔ OnlyChanges l s₀ s :=
  (postsChanged_zero_only n s).peel h

theorem reportInbound_only (n : Nr) (e : Inbound) (reason : InboundReason) (count : Nat) (s : State) : OnlyChanges [.transmitter] s (reportInbound n e reason count s) := by
  unfold reportInbound; (try dsimp only); (repeat' split) <;> simp

@[simp] theorem reportInbound_peel (n : Nr) (e : Inbound) (reason : InboundReason) (count : Nat) (s : State) {l : List Part} {s₀ : State} (h : [.transmitter] ⊆ l) :
    OnlyChanges l s₀ (reportInbound n e reason count s) ↔ OnlyChanges l s₀ s := (reportInbound_only n e reason count s).peel h

theorem inboundArrives_only (n : Nr) (id : Nat) (s : State) : OnlyChanges (Part.counting n) s (inboundArrives n id s) := by
  unfold inboundArrives; (try dsimp only); (repeat' split) <;> simp

@[simp] theorem inboundArrives_peel (n : Nr) (id : Nat) (s : State) {l : List Part} {s₀ : State} (h : (Part.counting n) ⊆ l) :
    OnlyChanges l s₀ (inboundArrives n id s) ↔ OnlyChanges l s₀ s := (inboundArrives_only n id s).peel h

theorem seatExpires_only (n : Nr) (index : Nat) (s : State) : OnlyChanges (.clock :: Part.counting n) s (seatExpires n index s) := by
  unfold seatExpires; (try dsimp only); (repeat' split) <;> simp

@[simp] theorem seatExpires_peel (n : Nr) (index : Nat) (s : State) {l : List Part} {s₀ : State} (h : (.clock :: Part.counting n) ⊆ l) :
    OnlyChanges l s₀ (seatExpires n index s) ↔ OnlyChanges l s₀ s := (seatExpires_only n index s).peel h

end Sys2Proof.Machine
end

