-- ==== Sys2Proof/Laws/FrameLines.lean ====
section
/-! SUPPORT. What each operation of the blocks can change, from the order intake to the order table. -/

set_option linter.unusedSimpArgs false

namespace Sys2Proof.Machine

/-! ### Orders that arrive -/

theorem rejectOrder_only (n : Nr) (post : Nat) (side : Side) (r : Rejection) (s : State) : OnlyChanges [.post n] s (rejectOrder n post side r s) := by
  unfold rejectOrder; (try dsimp only); (repeat' split) <;> simp

@[simp] theorem rejectOrder_peel (n : Nr) (post : Nat) (side : Side) (r : Rejection) (s : State) {l : List Part} {s₀ : State} (h : [.post n] ⊆ l) :
    OnlyChanges l s₀ (rejectOrder n post side r s) ↔ OnlyChanges l s₀ s := (rejectOrder_only n post side r s).peel h

theorem takeOrder_only (n : Nr) (post : Fin 97) (side : Side) (keyed : OrderMode) (lines : List OrderLine) (s : State) : OnlyChanges Part.kitchen s (takeOrder n post side keyed lines s) := by
  unfold takeOrder; (try dsimp only); (repeat' split) <;> simp

@[simp] theorem takeOrder_peel (n : Nr) (post : Fin 97) (side : Side) (keyed : OrderMode) (lines : List OrderLine) (s : State) {l : List Part} {s₀ : State} (h : Part.kitchen ⊆ l) :
    OnlyChanges l s₀ (takeOrder n post side keyed lines s) ↔ OnlyChanges l s₀ s := (takeOrder_only n post side keyed lines s).peel h

theorem orderArrives_only (n : Nr) (post : Fin 97) (side : Side) (k : Keyed) (s : State) : OnlyChanges Part.kitchen s (orderArrives n post side k s) := by
  unfold orderArrives; (try dsimp only); (repeat' split) <;> simp

@[simp] theorem orderArrives_peel (n : Nr) (post : Fin 97) (side : Side) (k : Keyed) (s : State) {l : List Part} {s₀ : State} (h : Part.kitchen ⊆ l) :
    OnlyChanges l s₀ (orderArrives n post side k s) ↔ OnlyChanges l s₀ s := (orderArrives_only n post side k s).peel h

theorem cancelArrives_only (n : Nr) (post : Fin 97) (side : Side) (number : Nat) (s : State) : OnlyChanges Part.kitchen s (cancelArrives n post side number s) := by
  unfold cancelArrives; (try dsimp only); (repeat' split) <;> simp

@[simp] theorem cancelArrives_peel (n : Nr) (post : Fin 97) (side : Side) (number : Nat) (s : State) {l : List Part} {s₀ : State} (h : Part.kitchen ⊆ l) :
    OnlyChanges l s₀ (cancelArrives n post side number s) ↔ OnlyChanges l s₀ s := (cancelArrives_only n post side number s).peel h

/-! ### Posts -/

theorem setNode_only (s : State) (n : Nr) (a : Fin 97) (v : Node) : OnlyChanges [.post n] s (s.setNode n a v) := by
  unfold State.setNode; simp

@[simp] theorem setNode_peel (s : State) (n : Nr) (a : Fin 97) (v : Node) {l : List Part} {s₀ : State} (h : [.post n] ⊆ l) :
    OnlyChanges l s₀ (s.setNode n a v) ↔ OnlyChanges l s₀ s := (setNode_only s n a v).peel h

theorem showFm_only (s : State) (n : Nr) : OnlyChanges (Part.cond (.fmFault n)) s (s.showFm n) := by
  unfold State.showFm; (try dsimp only); (repeat' split) <;> simp

@[simp] theorem showFm_peel (s : State) (n : Nr) {l : List Part} {s₀ : State} (h : (Part.cond (.fmFault n)) ⊆ l) :
    OnlyChanges l s₀ (s.showFm n) ↔ OnlyChanges l s₀ s := (showFm_only s n).peel h

theorem exciterChanged_only (n : Nr) (a : Fin 97) (s : State) : OnlyChanges (Part.cond (.fmFault n)) s (exciterChanged n a s) := by
  unfold exciterChanged; (try dsimp only); (repeat' split) <;> simp

@[simp] theorem exciterChanged_peel (n : Nr) (a : Fin 97) (s : State) {l : List Part} {s₀ : State} (h : (Part.cond (.fmFault n)) ⊆ l) :
    OnlyChanges l s₀ (exciterChanged n a s) ↔ OnlyChanges l s₀ s := (exciterChanged_only n a s).peel h

theorem reportPost_only (n : Nr) (a : Fin 97) (previous : NodeState) (cause : PostCause) (s : State) : OnlyChanges [.transmitter] s (reportPost n a previous cause s) := by
  unfold reportPost; (try dsimp only); (repeat' split) <;> simp

@[simp] theorem reportPost_peel (n : Nr) (a : Fin 97) (previous : NodeState) (cause : PostCause) (s : State) {l : List Part} {s₀ : State} (h : [.transmitter] ⊆ l) :
    OnlyChanges l s₀ (reportPost n a previous cause s) ↔ OnlyChanges l s₀ s := (reportPost_only n a previous cause s).peel h

theorem dropAged_only (n : Nr) (address : Nat) (s : State) : OnlyChanges (.transmitter :: Part.notices) s (dropAged n address s) := by
  exact .foldl _ (fun s e => dropEntry_only n _ e s) _ _

@[simp] theorem dropAged_peel (n : Nr) (address : Nat) (s : State) {l : List Part} {s₀ : State} (h : (.transmitter :: Part.notices) ⊆ l) :
    OnlyChanges l s₀ (dropAged n address s) ↔ OnlyChanges l s₀ s := (dropAged_only n address s).peel h

theorem takeAway_only (n : Nr) (a : Fin 97) (v : Node) (s : State) : OnlyChanges (Part.leaving n) s (takeAway n a v s) := by
  unfold takeAway; (try dsimp only); (repeat' split) <;> simp

@[simp] theorem takeAway_peel (n : Nr) (a : Fin 97) (v : Node) (s : State) {l : List Part} {s₀ : State} (h : (Part.leaving n) ⊆ l) :
    OnlyChanges l s₀ (takeAway n a v s) ↔ OnlyChanges l s₀ s := (takeAway_only n a v s).peel h

theorem allAbsent_only (n : Nr) (s : State) : OnlyChanges (Part.leaving n) s (allAbsent n s) := by
  refine .foldl _ ?_ _ _; intro s a; split
  · exact .refl _ _
  · exact takeAway_only n a _ s

@[simp] theorem allAbsent_peel (n : Nr) (s : State) {l : List Part} {s₀ : State} (h : (Part.leaving n) ⊆ l) :
    OnlyChanges l s₀ (allAbsent n s) ↔ OnlyChanges l s₀ s := (allAbsent_only n s).peel h

theorem allSilent_only (n : Nr) (s : State) : OnlyChanges (Part.leaving n) s (allSilent n s) := by
  refine .foldl _ ?_ _ _; intro s a; split
  · exact takeAway_only n a _ s
  · exact .refl _ _

@[simp] theorem allSilent_peel (n : Nr) (s : State) {l : List Part} {s₀ : State} (h : (Part.leaving n) ⊆ l) :
    OnlyChanges l s₀ (allSilent n s) ↔ OnlyChanges l s₀ s := (allSilent_only n s).peel h

theorem chooseDown_only (n : Nr) (s : State) : OnlyChanges Part.notices s (chooseDown n s).1 := by
  unfold chooseDown; (try dsimp only); (repeat' split) <;> simp

@[simp] theorem chooseDown_peel (n : Nr) (s : State) {l : List Part} {s₀ : State} (h : Part.notices ⊆ l) :
    OnlyChanges l s₀ (chooseDown n s).1 ↔ OnlyChanges l s₀ s := (chooseDown_only n s).peel h

theorem flipToggle_only (n : Nr) (a : Fin 97) (s : State) : OnlyChanges [.post n] s (flipToggle n a s) := by
  unfold flipToggle; (try dsimp only); (repeat' split) <;> simp

@[simp] theorem flipToggle_peel (n : Nr) (a : Fin 97) (s : State) {l : List Part} {s₀ : State} (h : [.post n] ⊆ l) :
    OnlyChanges l s₀ (flipToggle n a s) ↔ OnlyChanges l s₀ s := (flipToggle_only n a s).peel h

theorem acknowledge_only (n : Nr) (a : Fin 97) (e : DownEntry) (s : State) : OnlyChanges Part.notices s (acknowledge n a e s) := by
  unfold acknowledge; (try dsimp only); (repeat' split) <;> simp

@[simp] theorem acknowledge_peel (n : Nr) (a : Fin 97) (e : DownEntry) (s : State) {l : List Part} {s₀ : State} (h : Part.notices ⊆ l) :
    OnlyChanges l s₀ (acknowledge n a e s) ↔ OnlyChanges l s₀ s := (acknowledge_only n a e s).peel h

theorem unacknowledged_only (n : Nr) (a : Fin 97) (s : State) : OnlyChanges (.transmitter :: Part.notices) s (unacknowledged n a s) := by
  unfold unacknowledged; (try dsimp only); (repeat' split) <;> simp

@[simp] theorem unacknowledged_peel (n : Nr) (a : Fin 97) (s : State) {l : List Part} {s₀ : State} (h : (.transmitter :: Part.notices) ⊆ l) :
    OnlyChanges l s₀ (unacknowledged n a s) ↔ OnlyChanges l s₀ s := (unacknowledged_only n a s).peel h

theorem downAck_only (n : Nr) (a : Fin 97) (toggle : Bool) (s : State) : OnlyChanges (.transmitter :: Part.notices) s (downAck n a toggle s) := by
  unfold downAck; (try dsimp only); (repeat' split) <;> simp

@[simp] theorem downAck_peel (n : Nr) (a : Fin 97) (toggle : Bool) (s : State) {l : List Part} {s₀ : State} (h : (.transmitter :: Part.notices) ⊆ l) :
    OnlyChanges l s₀ (downAck n a toggle s) ↔ OnlyChanges l s₀ s := (downAck_only n a toggle s).peel h

theorem upstream_only (n : Nr) (a : Fin 97) (kind : Byte) (body : List Byte) (s : State) : OnlyChanges Part.kitchen s (upstream n a kind body s) := by
  unfold upstream; (try dsimp only); (repeat' split) <;> simp

@[simp] theorem upstream_peel (n : Nr) (a : Fin 97) (kind : Byte) (body : List Byte) (s : State) {l : List Part} {s₀ : State} (h : Part.kitchen ⊆ l) :
    OnlyChanges l s₀ (upstream n a kind body s) ↔ OnlyChanges l s₀ s := (upstream_only n a kind body s).peel h

theorem upstreamReply_only (n : Nr) (a : Fin 97) (p : ReplyParts) (s : State) : OnlyChanges Part.kitchen s (upstreamReply n a p s) := by
  unfold upstreamReply; (try dsimp only); (repeat' split) <;> simp

@[simp] theorem upstreamReply_peel (n : Nr) (a : Fin 97) (p : ReplyParts) (s : State) {l : List Part} {s₀ : State} (h : Part.kitchen ⊆ l) :
    OnlyChanges l s₀ (upstreamReply n a p s) ↔ OnlyChanges l s₀ s := (upstreamReply_only n a p s).peel h

theorem takeStatus_only (n : Nr) (status : Byte) (s : State) : OnlyChanges [.post n] s (takeStatus n status s) := by
  unfold takeStatus; (try dsimp only); (repeat' split) <;> simp

@[simp] theorem takeStatus_peel (n : Nr) (status : Byte) (s : State) {l : List Part} {s₀ : State} (h : [.post n] ⊆ l) :
    OnlyChanges l s₀ (takeStatus n status s) ↔ OnlyChanges l s₀ s := (takeStatus_only n status s).peel h

theorem enterPresent_only (n : Nr) (a : Fin 97) (p : ReplyParts) (s : State) : OnlyChanges (Part.cond (.fmFault n) ++ Part.counting n) s (enterPresent n a p s) := by
  unfold enterPresent; (try dsimp only); (repeat' split) <;> simp

@[simp] theorem enterPresent_peel (n : Nr) (a : Fin 97) (p : ReplyParts) (s : State) {l : List Part} {s₀ : State} (h : (Part.cond (.fmFault n) ++ Part.counting n) ⊆ l) :
    OnlyChanges l s₀ (enterPresent n a p s) ↔ OnlyChanges l s₀ s := (enterPresent_only n a p s).peel h

theorem postReply_only (n : Nr) (a : Fin 97) (p : ReplyParts) (s : State) : OnlyChanges (Part.counting n) s (postReply n a p s) := by
  unfold postReply; (try dsimp only); (repeat' split) <;> simp

@[simp] theorem postReply_peel (n : Nr) (a : Fin 97) (p : ReplyParts) (s : State) {l : List Part} {s₀ : State} (h : (Part.counting n) ⊆ l) :
    OnlyChanges l s₀ (postReply n a p s) ↔ OnlyChanges l s₀ s := (postReply_only n a p s).peel h

theorem exciterReply_only (n : Nr) (a : Fin 97) (p : ReplyParts) (s : State) : OnlyChanges (.post n :: Part.cond (.fmFault n)) s (exciterReply n a p s) := by
  unfold exciterReply; (try dsimp only); (repeat' split) <;> simp

@[simp] theorem exciterReply_peel (n : Nr) (a : Fin 97) (p : ReplyParts) (s : State) {l : List Part} {s₀ : State} (h : (.post n :: Part.cond (.fmFault n)) ⊆ l) :
    OnlyChanges l s₀ (exciterReply n a p s) ↔ OnlyChanges l s₀ s := (exciterReply_only n a p s).peel h

theorem presentReply_only (n : Nr) (a : Fin 97) (p : ReplyParts) (s : State) : OnlyChanges (Part.cond (.fmFault n) ++ Part.counting n) s (presentReply n a p s) := by
  unfold presentReply; (try dsimp only); (repeat' split) <;> simp

@[simp] theorem presentReply_peel (n : Nr) (a : Fin 97) (p : ReplyParts) (s : State) {l : List Part} {s₀ : State} (h : (Part.cond (.fmFault n) ++ Part.counting n) ⊆ l) :
    OnlyChanges l s₀ (presentReply n a p s) ↔ OnlyChanges l s₀ s := (presentReply_only n a p s).peel h

theorem presentError_only (n : Nr) (a : Fin 97) (o : WindowOutcome) (s : State) : OnlyChanges (Part.cond (.fmFault n) ++ Part.leaving n) s (presentError n a o s) := by
  unfold presentError; (try dsimp only); (repeat' split) <;> simp

@[simp] theorem presentError_peel (n : Nr) (a : Fin 97) (o : WindowOutcome) (s : State) {l : List Part} {s₀ : State} (h : (Part.cond (.fmFault n) ++ Part.leaving n) ⊆ l) :
    OnlyChanges l s₀ (presentError n a o s) ↔ OnlyChanges l s₀ s := (presentError_only n a o s).peel h

theorem takeOutcome_only (n : Nr) (poll : Poll) (o : WindowOutcome) (bytes : List Byte) (s : State) : OnlyChanges (Part.cond (.fmFault n) ++ Part.counting n) s (takeOutcome n poll o bytes s) := by
  unfold takeOutcome; (try dsimp only); (repeat' split) <;> simp

@[simp] theorem takeOutcome_peel (n : Nr) (poll : Poll) (o : WindowOutcome) (bytes : List Byte) (s : State) {l : List Part} {s₀ : State} (h : (Part.cond (.fmFault n) ++ Part.counting n) ⊆ l) :
    OnlyChanges l s₀ (takeOutcome n poll o bytes s) ↔ OnlyChanges l s₀ s := (takeOutcome_only n poll o bytes s).peel h

/-- The outcome NO_REPLY fills no bay. -/
theorem takeOutcome_noReply_only (n : Nr) (poll : Poll) (bytes : List Byte) (s : State) :
    OnlyChanges (Part.cond (.fmFault n) ++ Part.leaving n) s (takeOutcome n poll .noReply bytes s) := by
  unfold takeOutcome; simp only [reduceCtorEq, false_and, if_false]; split <;> (try split) <;> simp

@[simp] theorem takeOutcome_noReply_peel (n : Nr) (poll : Poll) (bytes : List Byte) (s : State) {l : List Part} {s₀ : State}
    (h : (Part.cond (.fmFault n) ++ Part.leaving n) ⊆ l) :
    OnlyChanges l s₀ (takeOutcome n poll .noReply bytes s) ↔ OnlyChanges l s₀ s := (takeOutcome_noReply_only n poll bytes s).peel h

theorem silenceEnds_only (n : Nr) (a : Fin 97) (s : State) : OnlyChanges (.clock :: .post n :: Part.cond (.fmFault n)) s (silenceEnds n a s) := by
  unfold silenceEnds; (try dsimp only); (repeat' split) <;> simp

@[simp] theorem silenceEnds_peel (n : Nr) (a : Fin 97) (s : State) {l : List Part} {s₀ : State} (h : (.clock :: .post n :: Part.cond (.fmFault n)) ⊆ l) :
    OnlyChanges l s₀ (silenceEnds n a s) ↔ OnlyChanges l s₀ s := (silenceEnds_only n a s).peel h

theorem ageComes_only (n : Nr) (number : Nat) (s : State) : OnlyChanges (.clock :: .transmitter :: Part.notices) s (ageComes n number s) := by
  unfold ageComes; (try dsimp only); (repeat' split) <;> simp

@[simp] theorem ageComes_peel (n : Nr) (number : Nat) (s : State) {l : List Part} {s₀ : State} (h : (.clock :: .transmitter :: Part.notices) ⊆ l) :
    OnlyChanges l s₀ (ageComes n number s) ↔ OnlyChanges l s₀ s := (ageComes_only n number s).peel h

theorem markNode_only (n : Nr) (a : Fin 97) (disabled : Bool) (s : State) : OnlyChanges (Part.cond (.fmFault n) ++ Part.leaving n) s (markNode n a disabled s) := by
  unfold markNode; (try dsimp only); (repeat' split) <;> simp

@[simp] theorem markNode_peel (n : Nr) (a : Fin 97) (disabled : Bool) (s : State) {l : List Part} {s₀ : State} (h : (Part.cond (.fmFault n) ++ Part.leaving n) ⊆ l) :
    OnlyChanges l s₀ (markNode n a disabled s) ↔ OnlyChanges l s₀ s := (markNode_only n a disabled s).peel h

theorem setBays_only (n : Nr) (a : Fin 97) (disabled left right : Bool) (position : Nat) (s : State) : OnlyChanges (Part.leaving n) s (setBays n a disabled left right position s) := by
  unfold setBays; (try dsimp only); (repeat' split) <;> simp

@[simp] theorem setBays_peel (n : Nr) (a : Fin 97) (disabled left right : Bool) (position : Nat) (s : State) {l : List Part} {s₀ : State} (h : (Part.leaving n) ⊆ l) :
    OnlyChanges l s₀ (setBays n a disabled left right position s) ↔ OnlyChanges l s₀ s := (setBays_only n a disabled left right position s).peel h

/-! ### The gate -/

theorem showBlocked_only (s : State) (n : Nr) : OnlyChanges (Part.cond (.laneBlocked n)) s (s.showBlocked n) := by
  unfold State.showBlocked; simp

@[simp] theorem showBlocked_peel (s : State) (n : Nr) {l : List Part} {s₀ : State} (h : (Part.cond (.laneBlocked n)) ⊆ l) :
    OnlyChanges l s₀ (s.showBlocked n) ↔ OnlyChanges l s₀ s := (showBlocked_only s n).peel h

theorem countPass_only (n : Nr) (s : State) (p : RawPass) : OnlyChanges (.lane n :: .site :: Part.countingAny) s (countPass n s p) := by
  unfold countPass
  extract_lets l taken site t g u flags v
  have hv : OnlyChanges (.lane n :: .site :: Part.countingAny) s v :=
    (((setLane_only s n _).mono (by simp)).trans ((site_only t _).mono (by simp))).trans ((report_only u _ _).mono (by simp))
  cases taken with
  | none => exact hv
  | some a =>
    refine hv.trans ?_
    dsimp only
    generalize a.field = k
    cases k <;> simp

@[simp] theorem countPass_peel (n : Nr) (s : State) (p : RawPass) {l : List Part} {s₀ : State} (h : (.lane n :: .site :: Part.countingAny) ⊆ l) :
    OnlyChanges l s₀ (countPass n s p) ↔ OnlyChanges l s₀ s := (countPass_only n s p).peel h

/-- The decoder follows its table (R138 to R140). -/
theorem decode_eq_decoderTable (d : Decoder) (held : Nat) (loop : LoopName) (up : Bool) :
    decode d held loop up = decoderTable d held loop up := by
  cases d <;> cases loop <;> cases up <;> rfl

theorem decoderTakes_only (n : Nr) (loop : LoopName) (up : Bool) (s : State) : OnlyChanges (.lane n :: .site :: Part.countingAny) s (decoderTakes n loop up s) := by
  have h := fun (xs : List RawPass) (s₀ t : State) => OnlyChanges.foldl_peel (countPass n) (fun s c => countPass_only n s c) xs s₀ t
  unfold decoderTakes; dsimp only; rw [h]; simp

@[simp] theorem decoderTakes_peel (n : Nr) (loop : LoopName) (up : Bool) (s : State) {l : List Part} {s₀ : State} (h : (.lane n :: .site :: Part.countingAny) ⊆ l) :
    OnlyChanges l s₀ (decoderTakes n loop up s) ↔ OnlyChanges l s₀ s := (decoderTakes_only n loop up s).peel h

theorem loopChanges_only (n : Nr) (loop : LoopName) (level : Bool) (s : State) : OnlyChanges (.lane n :: .site :: (Part.cond (.laneBlocked n) ++ Part.countingAny)) s (loopChanges n loop level s) := by
  unfold loopChanges
  extract_lets l turned t
  have ht : OnlyChanges (.lane n :: .site :: (Part.cond (.laneBlocked n) ++ Part.countingAny)) s t :=
    ((setLane_only s n turned).mono (by simp)).trans ((showBlocked_only _ n).mono (by simp))
  split
  · exact ht.trans ((decoderTakes_only n loop level t).mono
      (List.cons_subset_cons _ (List.cons_subset_cons _ (List.subset_append_right _ _))))
  · split
    · exact ht.trans ((setLane_only t n _).mono (by simp))
    · exact ht

@[simp] theorem loopChanges_peel (n : Nr) (loop : LoopName) (level : Bool) (s : State) {l : List Part} {s₀ : State} (h : (.lane n :: .site :: (Part.cond (.laneBlocked n) ++ Part.countingAny)) ⊆ l) :
    OnlyChanges l s₀ (loopChanges n loop level s) ↔ OnlyChanges l s₀ s := (loopChanges_only n loop level s).peel h

theorem laneSample_only (n : Nr) (s : State) (v : Bool × Bool) : OnlyChanges (.lane n :: .site :: (Part.cond (.laneBlocked n) ++ Part.countingAny)) s (laneSample n s v) := by
  unfold laneSample
  extract_lets l a b x y t u
  have ht : OnlyChanges (.lane n :: .site :: (Part.cond (.laneBlocked n) ++ Part.countingAny)) s t :=
    (setLane_only s n _).mono (by simp)
  have hu : OnlyChanges (.lane n :: .site :: (Part.cond (.laneBlocked n) ++ Part.countingAny)) s u := by
    by_cases h : a.2
    · rw [show u = loopChanges n .a v.1 t from if_pos h]; exact ht.trans (loopChanges_only n .a v.1 t)
    · rw [show u = t from if_neg h]; exact ht
  split
  · exact .refl _ _
  · split
    · exact hu.trans (loopChanges_only n .b v.2 u)
    · exact hu

@[simp] theorem laneSample_peel (n : Nr) (s : State) (v : Bool × Bool) {l : List Part} {s₀ : State} (h : (.lane n :: .site :: (Part.cond (.laneBlocked n) ++ Part.countingAny)) ⊆ l) :
    OnlyChanges l s₀ (laneSample n s v) ↔ OnlyChanges l s₀ s := (laneSample_only n s v).peel h

theorem firstSample_only (n : Nr) (a b : Bool) (s : State) : OnlyChanges [.lane n] s (firstSample n a b s) := by
  unfold firstSample; (try dsimp only); (repeat' split) <;> simp

@[simp] theorem firstSample_peel (n : Nr) (a b : Bool) (s : State) {l : List Part} {s₀ : State} (h : [.lane n] ⊆ l) :
    OnlyChanges l s₀ (firstSample n a b s) ↔ OnlyChanges l s₀ s := (firstSample_only n a b s).peel h

theorem blockedExpires_only (n : Nr) (loop : LoopName) (s : State) : OnlyChanges (.clock :: .lane n :: Part.cond (.laneBlocked n)) s (blockedExpires n loop s) := by
  unfold blockedExpires; (try dsimp only); (repeat' split) <;> simp

@[simp] theorem blockedExpires_peel (n : Nr) (loop : LoopName) (s : State) {l : List Part} {s₀ : State} (h : (.clock :: .lane n :: Part.cond (.laneBlocked n)) ⊆ l) :
    OnlyChanges l s₀ (blockedExpires n loop s) ↔ OnlyChanges l s₀ s := (blockedExpires_only n loop s).peel h

theorem admissionExpires_only (n : Nr) (id : Nat) (s : State) : OnlyChanges [.clock, .lane n, .transmitter] s (admissionExpires n id s) := by
  unfold admissionExpires; (try dsimp only); (repeat' split) <;> simp

@[simp] theorem admissionExpires_peel (n : Nr) (id : Nat) (s : State) {l : List Part} {s₀ : State} (h : [.clock, .lane n, .transmitter] ⊆ l) :
    OnlyChanges l s₀ (admissionExpires n id s) ↔ OnlyChanges l s₀ s := (admissionExpires_only n id s).peel h

/-! ### Field lines -/

theorem setLineState_only (n : Nr) (new : LineState) (s : State) : OnlyChanges (Part.lineState n) s (setLineState n new s) := by
  unfold setLineState; (try dsimp only); (repeat' split) <;> simp

@[simp] theorem setLineState_peel (n : Nr) (new : LineState) (s : State) {l : List Part} {s₀ : State} (h : (Part.lineState n) ⊆ l) :
    OnlyChanges l s₀ (setLineState n new s) ↔ OnlyChanges l s₀ s := (setLineState_only n new s).peel h

theorem reportLine_only (n : Nr) (previous : LineState) (cause : LineCause) (s : State) : OnlyChanges [.transmitter] s (reportLine n previous cause s) := by
  unfold reportLine; (try dsimp only); (repeat' split) <;> simp

@[simp] theorem reportLine_peel (n : Nr) (previous : LineState) (cause : LineCause) (s : State) {l : List Part} {s₀ : State} (h : [.transmitter] ⊆ l) :
    OnlyChanges l s₀ (reportLine n previous cause s) ↔ OnlyChanges l s₀ s := (reportLine_only n previous cause s).peel h

theorem cutWire_only (n : Nr) (s : State) : OnlyChanges [.line n, .freeCount] s (cutWire n s) := by
  unfold cutWire; (try dsimp only); split
  · simp
  · exact ((setLine_only s n _).mono (by simp)).trans ((freeCount_only _ _).mono (by simp))
  · simp

@[simp] theorem cutWire_peel (n : Nr) (s : State) {l : List Part} {s₀ : State} (h : [.line n, .freeCount] ⊆ l) :
    OnlyChanges l s₀ (cutWire n s) ↔ OnlyChanges l s₀ s := (cutWire_only n s).peel h

theorem enterFault_only (n : Nr) (s : State) : OnlyChanges (Part.faulting n) s (enterFault n s) := by
  unfold enterFault; (try dsimp only); (repeat' split) <;> simp

@[simp] theorem enterFault_peel (n : Nr) (s : State) {l : List Part} {s₀ : State} (h : (Part.faulting n) ⊆ l) :
    OnlyChanges l s₀ (enterFault n s) ↔ OnlyChanges l s₀ s := (enterFault_only n s).peel h

theorem faultIfActive_only (n : Nr) (s : State) : OnlyChanges (Part.faulting n) s (faultIfActive n s) := by
  unfold faultIfActive; (try dsimp only); (repeat' split) <;> simp

@[simp] theorem faultIfActive_peel (n : Nr) (s : State) {l : List Part} {s₀ : State} (h : (Part.faulting n) ⊆ l) :
    OnlyChanges l s₀ (faultIfActive n s) ↔ OnlyChanges l s₀ s := (faultIfActive_only n s).peel h

theorem beginCycle_only (n : Nr) (f : AudioFrame) (s : State) : OnlyChanges [.line n] s (beginCycle n f s) := by
  unfold beginCycle; (try dsimp only); (repeat' split) <;> simp

@[simp] theorem beginCycle_peel (n : Nr) (f : AudioFrame) (s : State) {l : List Part} {s₀ : State} (h : [.line n] ⊆ l) :
    OnlyChanges l s₀ (beginCycle n f s) ↔ OnlyChanges l s₀ s := (beginCycle_only n f s).peel h

theorem runLine_only (n : Nr) (f : AudioFrame) (s : State) : OnlyChanges (Part.faulting n) s (runLine n f s) := by
  unfold runLine; (try dsimp only); (repeat' split) <;> simp

@[simp] theorem runLine_peel (n : Nr) (f : AudioFrame) (s : State) {l : List Part} {s₀ : State} (h : (Part.faulting n) ⊆ l) :
    OnlyChanges l s₀ (runLine n f s) ↔ OnlyChanges l s₀ s := (runLine_only n f s).peel h

theorem startDone_only (n : Nr) (f : AudioFrame) (s : State) : OnlyChanges (Part.faulting n) s (startDone n f s) := by
  unfold startDone; (try dsimp only); (repeat' split) <;> simp

@[simp] theorem startDone_peel (n : Nr) (f : AudioFrame) (s : State) {l : List Part} {s₀ : State} (h : (Part.faulting n) ⊆ l) :
    OnlyChanges l s₀ (startDone n f s) ↔ OnlyChanges l s₀ s := (startDone_only n f s).peel h

theorem lfaultSample_only (n : Nr) (s : State) (high : Bool) : OnlyChanges (Part.faulting n) s (lfaultSample n s high) := by
  unfold lfaultSample; (try dsimp only); (repeat' split) <;> simp

@[simp] theorem lfaultSample_peel (n : Nr) (s : State) (high : Bool) {l : List Part} {s₀ : State} (h : (Part.faulting n) ⊆ l) :
    OnlyChanges l s₀ (lfaultSample n s high) ↔ OnlyChanges l s₀ s := (lfaultSample_only n s high).peel h

theorem audioDone_only (n : Nr) (s : State) : OnlyChanges (.line n :: Part.notices) s (audioDone n s) := by
  unfold audioDone; (try dsimp only); (repeat' split) <;> simp

@[simp] theorem audioDone_peel (n : Nr) (s : State) {l : List Part} {s₀ : State} (h : (.line n :: Part.notices) ⊆ l) :
    OnlyChanges l s₀ (audioDone n s) ↔ OnlyChanges l s₀ s := (audioDone_only n s).peel h

theorem windowEnds_only (n : Nr) (bits : List Bool) (s : State) : OnlyChanges (.line n :: (Part.cond (.fmFault n) ++ Part.counting n)) s (windowEnds n bits s) := by
  unfold windowEnds; (try dsimp only); (repeat' split) <;> simp

@[simp] theorem windowEnds_peel (n : Nr) (bits : List Bool) (s : State) {l : List Part} {s₀ : State} (h : (.line n :: (Part.cond (.fmFault n) ++ Part.counting n)) ⊆ l) :
    OnlyChanges l s₀ (windowEnds n bits s) ↔ OnlyChanges l s₀ s := (windowEnds_only n bits s).peel h

/-- A window in which no bit has come is NO_REPLY (R87, R90). -/
theorem windowEnds_nil_only (n : Nr) (s : State) :
    OnlyChanges (.line n :: (Part.cond (.fmFault n) ++ Part.leaving n)) s (windowEnds n [] s) := by
  unfold windowEnds
  simp only [windowOutcome, receive, List.take_nil]
  split
  · simp
  · split <;> simp

@[simp] theorem windowEnds_nil_peel (n : Nr) (s : State) {l : List Part} {s₀ : State}
    (h : (.line n :: (Part.cond (.fmFault n) ++ Part.leaving n)) ⊆ l) :
    OnlyChanges l s₀ (windowEnds n [] s) ↔ OnlyChanges l s₀ s := (windowEnds_nil_only n s).peel h

theorem finishCycle_only (n : Nr) (s : State) : OnlyChanges (.line n :: (Part.cond (.fmFault n) ++ Part.leaving n)) s (finishCycle n s) := by
  unfold finishCycle; simp

@[simp] theorem finishCycle_peel (n : Nr) (s : State) {l : List Part} {s₀ : State} (h : (.line n :: (Part.cond (.fmFault n) ++ Part.leaving n)) ⊆ l) :
    OnlyChanges l s₀ (finishCycle n s) ↔ OnlyChanges l s₀ s := (finishCycle_only n s).peel h

theorem beginMeasuring_only (n : Nr) (s : State) : OnlyChanges (.survey n :: Part.lineState n) s (beginMeasuring n s) := by
  unfold beginMeasuring; (try dsimp only); (repeat' split) <;> simp

@[simp] theorem beginMeasuring_peel (n : Nr) (s : State) {l : List Part} {s₀ : State} (h : (.survey n :: Part.lineState n) ⊆ l) :
    OnlyChanges l s₀ (beginMeasuring n s) ↔ OnlyChanges l s₀ s := (beginMeasuring_only n s).peel h

theorem prepareSurvey_only (n : Nr) (state : SurveyState) (cause : SurveyCause) (s : State) : OnlyChanges [.survey n] s (prepareSurvey n state cause s) := by
  unfold prepareSurvey; (try dsimp only); (repeat' split) <;> simp

@[simp] theorem prepareSurvey_peel (n : Nr) (state : SurveyState) (cause : SurveyCause) (s : State) {l : List Part} {s₀ : State} (h : [.survey n] ⊆ l) :
    OnlyChanges l s₀ (prepareSurvey n state cause s) ↔ OnlyChanges l s₀ s := (prepareSurvey_only n state cause s).peel h

theorem waitingBegins_only (n : Nr) (s : State) : OnlyChanges (.survey n :: Part.lineState n) s (waitingBegins n s) := by
  unfold waitingBegins; (try dsimp only); (repeat' split) <;> simp

@[simp] theorem waitingBegins_peel (n : Nr) (s : State) {l : List Part} {s₀ : State} (h : (.survey n :: Part.lineState n) ⊆ l) :
    OnlyChanges l s₀ (waitingBegins n s) ↔ OnlyChanges l s₀ s := (waitingBegins_only n s).peel h

theorem autoSurveyExpires_only (n : Nr) (s : State) : OnlyChanges (.clock :: .survey n :: Part.lineState n) s (autoSurveyExpires n s) := by
  unfold autoSurveyExpires; (try dsimp only); (repeat' split) <;> simp

@[simp] theorem autoSurveyExpires_peel (n : Nr) (s : State) {l : List Part} {s₀ : State} (h : (.clock :: .survey n :: Part.lineState n) ⊆ l) :
    OnlyChanges l s₀ (autoSurveyExpires n s) ↔ OnlyChanges l s₀ s := (autoSurveyExpires_only n s).peel h

theorem launchStep_only (n : Nr) (samples : List Int) (s : State) : OnlyChanges [.clock, .survey n] s (launchStep n samples s) := by
  unfold launchStep; (try dsimp only); (repeat' split) <;> simp

@[simp] theorem launchStep_peel (n : Nr) (samples : List Int) (s : State) {l : List Part} {s₀ : State} (h : [.clock, .survey n] ⊆ l) :
    OnlyChanges l s₀ (launchStep n samples s) ↔ OnlyChanges l s₀ s := (launchStep_only n samples s).peel h

theorem launchUntold_only (n : Nr) (s : State) : OnlyChanges [.clock, .freeCount, .survey n] s (launchUntold n s) := by
  unfold launchUntold; (try dsimp only); (repeat' split) <;> simp

@[simp] theorem launchUntold_peel (n : Nr) (s : State) {l : List Part} {s₀ : State} (h : [.clock, .freeCount, .survey n] ⊆ l) :
    OnlyChanges l s₀ (launchUntold n s) ↔ OnlyChanges l s₀ s := (launchUntold_only n s).peel h

theorem endSurvey_only (n : Nr) (outcome : SurveyOutcome) (records : List Reflection) (s : State) : OnlyChanges [.survey n, .transmitter] s (endSurvey n outcome records s) := by
  unfold endSurvey; (try dsimp only); (repeat' split) <;> simp

@[simp] theorem endSurvey_peel (n : Nr) (outcome : SurveyOutcome) (records : List Reflection) (s : State) {l : List Part} {s₀ : State} (h : [.survey n, .transmitter] ⊆ l) :
    OnlyChanges l s₀ (endSurvey n outcome records s) ↔ OnlyChanges l s₀ s := (endSurvey_only n outcome records s).peel h

theorem surveyReturns_only (n : Nr) (returnTo : LineState) (s : State) : OnlyChanges (Part.lineState n) s (surveyReturns n returnTo s) := by
  unfold surveyReturns; (try dsimp only); (repeat' split) <;> simp

@[simp] theorem surveyReturns_peel (n : Nr) (returnTo : LineState) (s : State) {l : List Part} {s₀ : State} (h : (Part.lineState n) ⊆ l) :
    OnlyChanges l s₀ (surveyReturns n returnTo s) ↔ OnlyChanges l s₀ s := (surveyReturns_only n returnTo s).peel h

theorem measuringExpires_only (n : Nr) (s : State) : OnlyChanges (.clock :: .freeCount :: .survey n :: Part.lineState n) s (measuringExpires n s) := by
  unfold measuringExpires; (try dsimp only); (repeat' split) <;> simp

@[simp] theorem measuringExpires_peel (n : Nr) (s : State) {l : List Part} {s₀ : State} (h : (.clock :: .freeCount :: .survey n :: Part.lineState n) ⊆ l) :
    OnlyChanges l s₀ (measuringExpires n s) ↔ OnlyChanges l s₀ s := (measuringExpires_only n s).peel h

theorem returnToRunning_only (n : Nr) (f : AudioFrame) (s : State) : OnlyChanges (Part.faulting n) s (returnToRunning n f s) := by
  unfold returnToRunning; (try dsimp only); (repeat' split) <;> simp

@[simp] theorem returnToRunning_peel (n : Nr) (f : AudioFrame) (s : State) {l : List Part} {s₀ : State} (h : (Part.faulting n) ⊆ l) :
    OnlyChanges l s₀ (returnToRunning n f s) ↔ OnlyChanges l s₀ s := (returnToRunning_only n f s).peel h

theorem settleClip_only (n : Nr) (s : State) : OnlyChanges (Part.cond (.clipped n)) s (settleClip n s) := by
  unfold settleClip; (try dsimp only); (repeat' split) <;> simp

@[simp] theorem settleClip_peel (n : Nr) (s : State) {l : List Part} {s₀ : State} (h : (Part.cond (.clipped n)) ⊆ l) :
    OnlyChanges l s₀ (settleClip n s) ↔ OnlyChanges l s₀ s := (settleClip_only n s).peel h

theorem beginBlock_only (n : Nr) (s : State) : OnlyChanges [.mixer n] s (beginBlock n s) := by
  unfold beginBlock; (try dsimp only); (repeat' split) <;> simp

@[simp] theorem beginBlock_peel (n : Nr) (s : State) {l : List Part} {s₀ : State} (h : [.mixer n] ⊆ l) :
    OnlyChanges l s₀ (beginBlock n s) ↔ OnlyChanges l s₀ s := (beginBlock_only n s).peel h

theorem duckStep_only (n : Nr) (s : State) : OnlyChanges [.mixer n, .announce, .transmitter] s (duckStep n s) := by
  unfold duckStep; (try dsimp only); (repeat' split) <;> simp

@[simp] theorem duckStep_peel (n : Nr) (s : State) {l : List Part} {s₀ : State} (h : [.mixer n, .announce, .transmitter] ⊆ l) :
    OnlyChanges l s₀ (duckStep n s) ↔ OnlyChanges l s₀ s := (duckStep_only n s).peel h

theorem lineBoundary_only (n : Nr) (block : List OutFrame) (s : State) : OnlyChanges (.survey n :: Part.faulting n) s (lineBoundary n block s) := by
  unfold lineBoundary; (try dsimp only); (repeat' split) <;> simp

@[simp] theorem lineBoundary_peel (n : Nr) (block : List OutFrame) (s : State) {l : List Part} {s₀ : State} (h : (.survey n :: Part.faulting n) ⊆ l) :
    OnlyChanges l s₀ (lineBoundary n block s) ↔ OnlyChanges l s₀ s := (lineBoundary_only n block s).peel h

theorem boundary_only (n : Nr) (s : State) : OnlyChanges (Part.boundary n) s (boundary n s) := by
  unfold boundary; (try dsimp only); (repeat' split) <;> simp

@[simp] theorem boundary_peel (n : Nr) (s : State) {l : List Part} {s₀ : State} (h : (Part.boundary n) ⊆ l) :
    OnlyChanges l s₀ (boundary n s) ↔ OnlyChanges l s₀ s := (boundary_only n s).peel h

theorem blockEnds_only (n : Nr) (s : State) : OnlyChanges (Part.boundary n) s (blockEnds n s) := by
  unfold blockEnds; split <;> simp

@[simp] theorem blockEnds_peel (n : Nr) (s : State) {l : List Part} {s₀ : State} (h : (Part.boundary n) ⊆ l) :
    OnlyChanges l s₀ (blockEnds n s) ↔ OnlyChanges l s₀ s := (blockEnds_only n s).peel h

theorem startCompletes_only (n : Nr) (s : State) : OnlyChanges (Part.boundary n) s (startCompletes n s) := by
  unfold startCompletes; (try dsimp only); (repeat' split) <;> simp

@[simp] theorem startCompletes_peel (n : Nr) (s : State) {l : List Part} {s₀ : State} (h : (Part.boundary n) ⊆ l) :
    OnlyChanges l s₀ (startCompletes n s) ↔ OnlyChanges l s₀ s := (startCompletes_only n s).peel h

theorem surveyBegins_only (n : Nr) (s : State) : OnlyChanges (Part.boundary n) s (surveyBegins n s) := by
  unfold surveyBegins; (try dsimp only); (repeat' split) <;> simp

@[simp] theorem surveyBegins_peel (n : Nr) (s : State) {l : List Part} {s₀ : State} (h : (Part.boundary n) ⊆ l) :
    OnlyChanges l s₀ (surveyBegins n s) ↔ OnlyChanges l s₀ s := (surveyBegins_only n s).peel h

theorem surveyGoesBack_only (n : Nr) (s : State) : OnlyChanges (Part.boundary n) s (surveyGoesBack n s) := by
  unfold surveyGoesBack; (try dsimp only); (repeat' split) <;> simp

@[simp] theorem surveyGoesBack_peel (n : Nr) (s : State) {l : List Part} {s₀ : State} (h : (Part.boundary n) ⊆ l) :
    OnlyChanges l s₀ (surveyGoesBack n s) ↔ OnlyChanges l s₀ s := (surveyGoesBack_only n s).peel h

/-- A sample instant can change what a boundary can. -/
theorem Part.boundary_sub_audio (n : Nr) : Part.boundary n ⊆ Part.audio := by
  intro p h; revert p; cases n <;> decide

theorem settleField_only (s : State) (n : Nr) : OnlyChanges Part.audio s (settleField s n) :=
  (((noteEnds_only n s).mono (by simp)).trans ((voiceEnds_only n _).mono (by simp))).trans
    ((blockEnds_only n _).mono (Part.boundary_sub_audio n))

theorem settled_only (s : State) : OnlyChanges Part.audio s (settled s) := by
  unfold settled
  refine .trans ?_ (.foldl _ settleField_only _ _)
  rw [silenceExpires_peel _ _ (by simp)]
  exact .foldl _ (fun s n => by simp) _ _

theorem instant_only (s : State) : OnlyChanges Part.audio s (instant s) := by
  unfold instant
  exact .trans ((intake_only s _).mono (by simp)) (.foldl _ (fun t n => by cases n <;> simp) _ _)

@[simp] theorem instant_peel (s : State) {l : List Part} {s₀ : State} (h : Part.audio ⊆ l) :
    OnlyChanges l s₀ (instant s) ↔ OnlyChanges l s₀ s := (instant_only s).peel h

@[simp] theorem settled_peel (s : State) {l : List Part} {s₀ : State} (h : Part.audio ⊆ l) :
    OnlyChanges l s₀ (settled s) ↔ OnlyChanges l s₀ s := (settled_only s).peel h

/-- Where nothing has come to its end, a sample instant is what every field does in it alone (R42, R44, R72). -/
theorem settled_of_none_due {s : State} (hs : ∀ i, s.intake.silence i ≠ some 0)
    (hb : ∀ n, (s.mixers.get n).block.length < blockSize)
    (hv : ∀ n note rest level k, s.announce.voices.get n = .sounding (note :: rest) level k → k < noteRun note) : settled s = s := by
  have h1 : ∀ i, silenceExpires i s = s := fun i => by simp [silenceExpires, hs i]
  have h2 : ∀ n, noteEnds n s = s := by
    intro n; unfold noteEnds; split
    · rename_i h; have := hv n _ _ _ _ h; split
      · omega
      · rfl
    · rfl
  have h3 : ∀ n, voiceEnds n s = s := by
    intro n; unfold voiceEnds; split
    · rename_i h; have := hv n _ _ _ _ h; split
      · omega
      · rfl
    · rfl
  have h4 : ∀ n, settleField s n = s := by
    intro n; simp only [settleField, h2, h3, blockEnds]; have := hb n; split
    · omega
    · rfl
  simp [settled, Nr.all, h1, h4]

theorem enterStarting_only (n : Nr) (s : State) : OnlyChanges (Part.faulting n) s (enterStarting n s) := by
  unfold enterStarting; (try dsimp only); (repeat' split) <;> simp

@[simp] theorem enterStarting_peel (n : Nr) (s : State) {l : List Part} {s₀ : State} (h : (Part.faulting n) ⊆ l) :
    OnlyChanges l s₀ (enterStarting n s) ↔ OnlyChanges l s₀ s := (enterStarting_only n s).peel h

theorem stopWire_only (n : Nr) (s : State) : OnlyChanges [.line n, .freeCount] s (stopWire n s) := by
  unfold stopWire; (try dsimp only); split
  · simp
  · exact ((setLine_only s n _).mono (by simp)).trans ((freeCount_only _ _).mono (by simp))
  · simp

@[simp] theorem stopWire_peel (n : Nr) (s : State) {l : List Part} {s₀ : State} (h : [.line n, .freeCount] ⊆ l) :
    OnlyChanges l s₀ (stopWire n s) ↔ OnlyChanges l s₀ s := (stopWire_only n s).peel h

theorem stopSurvey_only (n : Nr) (s : State) : OnlyChanges [.line n, .survey n, .transmitter] s (stopSurvey n s) := by
  unfold stopSurvey; (try dsimp only); (repeat' split) <;> simp

@[simp] theorem stopSurvey_peel (n : Nr) (s : State) {l : List Part} {s₀ : State} (h : [.line n, .survey n, .transmitter] ⊆ l) :
    OnlyChanges l s₀ (stopSurvey n s) ↔ OnlyChanges l s₀ s := (stopSurvey_only n s).peel h

theorem dropAll_only (n : Nr) (s : State) : OnlyChanges (.transmitter :: Part.notices) s (dropAll n s) := by
  exact .foldl _ (fun s e => dropEntry_only n _ e s) _ _

@[simp] theorem dropAll_peel (n : Nr) (s : State) {l : List Part} {s₀ : State} (h : (.transmitter :: Part.notices) ⊆ l) :
    OnlyChanges l s₀ (dropAll n s) ↔ OnlyChanges l s₀ s := (dropAll_only n s).peel h

theorem stopLine_only (n : Nr) (s : State) : OnlyChanges (.survey n :: Part.faulting n) s (stopLine n s) := by
  unfold stopLine; (try dsimp only); (repeat' split) <;> simp

@[simp] theorem stopLine_peel (n : Nr) (s : State) {l : List Part} {s₀ : State} (h : (.survey n :: Part.faulting n) ⊆ l) :
    OnlyChanges l s₀ (stopLine n s) ↔ OnlyChanges l s₀ s := (stopLine_only n s).peel h

/-! ### Orders -/

theorem setMenu_only (s : State) (menu : List MenuItem) : OnlyChanges [.orders] s (s.setMenu menu) := by
  unfold State.setMenu; simp

@[simp] theorem setMenu_peel (s : State) (menu : List MenuItem) {l : List Part} {s₀ : State} (h : [.orders] ⊆ l) :
    OnlyChanges l s₀ (s.setMenu menu) ↔ OnlyChanges l s₀ s := (setMenu_only s menu).peel h

theorem placeReady_only (o : Order) (w : Nr) (s : State) : OnlyChanges Part.kitchen s (placeReady o w s) := by
  unfold placeReady; (try dsimp only); (repeat' split) <;> simp

@[simp] theorem placeReady_peel (o : Order) (w : Nr) (s : State) {l : List Part} {s₀ : State} (h : Part.kitchen ⊆ l) :
    OnlyChanges l s₀ (placeReady o w s) ↔ OnlyChanges l s₀ s := (placeReady_only o w s).peel h

theorem acceptanceExpires_only (number : Nat) (s : State) : OnlyChanges (.clock :: Part.kitchen) s (acceptanceExpires number s) := by
  unfold acceptanceExpires; (try dsimp only); (repeat' split) <;> simp

@[simp] theorem acceptanceExpires_peel (number : Nat) (s : State) {l : List Part} {s₀ : State} (h : (.clock :: Part.kitchen) ⊆ l) :
    OnlyChanges l s₀ (acceptanceExpires number s) ↔ OnlyChanges l s₀ s := (acceptanceExpires_only number s).peel h

theorem reminderExpires_only (number : Nat) (s : State) : OnlyChanges (.clock :: Part.notices) s (reminderExpires number s) := by
  unfold reminderExpires; (try dsimp only); (repeat' split) <;> simp

@[simp] theorem reminderExpires_peel (number : Nat) (s : State) {l : List Part} {s₀ : State} (h : (.clock :: Part.notices) ⊆ l) :
    OnlyChanges l s₀ (reminderExpires number s) ↔ OnlyChanges l s₀ s := (reminderExpires_only number s).peel h

theorem staleExpires_only (number : Nat) (s : State) : OnlyChanges [.clock, .orders, .transmitter] s (staleExpires number s) := by
  unfold staleExpires; (try dsimp only); (repeat' split) <;> simp

@[simp] theorem staleExpires_peel (number : Nat) (s : State) {l : List Part} {s₀ : State} (h : [.clock, .orders, .transmitter] ⊆ l) :
    OnlyChanges l s₀ (staleExpires number s) ↔ OnlyChanges l s₀ s := (staleExpires_only number s).peel h

theorem bayEmptyExpires_only (number : Nat) (s : State) : OnlyChanges [.clock, .orders, .transmitter] s (bayEmptyExpires number s) := by
  unfold bayEmptyExpires; (try dsimp only); (repeat' split) <;> simp

@[simp] theorem bayEmptyExpires_peel (number : Nat) (s : State) {l : List Part} {s₀ : State} (h : [.clock, .orders, .transmitter] ⊆ l) :
    OnlyChanges l s₀ (bayEmptyExpires number s) ↔ OnlyChanges l s₀ s := (bayEmptyExpires_only number s).peel h

end Sys2Proof.Machine
end

