-- ==== Sys2Proof/Laws/Serve.lean ====
section
/-! SUPPORT. What the link's part of a request does: its turn, its reply, the reports that are on their way out. -/

namespace Sys2Proof.Machine

/-! ### The link's fields under the transmitter's choice and under an answer -/

@[simp] theorem Link.kick_rate (l : Link) : (Link.kick l).rate = l.rate := by
  obtain ⟨tx, queue, h⟩ := Link.kick_cases l; rw [h]

@[simp] theorem Link.kick_rx (l : Link) : (Link.kick l).rx = l.rx := by
  obtain ⟨tx, queue, h⟩ := Link.kick_cases l; rw [h]

@[simp] theorem Link.kick_requests (l : Link) : (Link.kick l).requests = l.requests := by
  obtain ⟨tx, queue, h⟩ := Link.kick_cases l; rw [h]

@[simp] theorem Link.kick_busy (l : Link) : (Link.kick l).busy = l.busy := by
  obtain ⟨tx, queue, h⟩ := Link.kick_cases l; rw [h]

@[simp] theorem Link.kick_restart (l : Link) : (Link.kick l).restart = l.restart := by
  obtain ⟨tx, queue, h⟩ := Link.kick_cases l; rw [h]

@[simp] theorem Link.kick_restartDue (l : Link) : (Link.kick l).restartDue = l.restartDue := by
  obtain ⟨tx, queue, h⟩ := Link.kick_cases l; rw [h]

@[simp] theorem Link.kick_replyCount (l : Link) : (Link.kick l).replyCount = l.replyCount := by
  obtain ⟨tx, queue, h⟩ := Link.kick_cases l; rw [h]

@[simp] theorem Link.kick_enables (l : Link) : (Link.kick l).enables = l.enables := by
  obtain ⟨tx, queue, h⟩ := Link.kick_cases l; rw [h]

@[simp] theorem Link.kick_lost (l : Link) : (Link.kick l).lost = l.lost := by
  obtain ⟨tx, queue, h⟩ := Link.kick_cases l; rw [h]

@[simp] theorem Link.kick_live (l : Link) : (Link.kick l).live = l.live := by
  obtain ⟨tx, queue, h⟩ := Link.kick_cases l; rw [h]

@[simp] theorem Link.kick_rise (l : Link) : (Link.kick l).rise = l.rise := by
  obtain ⟨tx, queue, h⟩ := Link.kick_cases l; rw [h]

@[simp] theorem Link.kick_fall (l : Link) : (Link.kick l).fall = l.fall := by
  obtain ⟨tx, queue, h⟩ := Link.kick_cases l; rw [h]

@[simp] theorem Link.kick_latch (l : Link) : (Link.kick l).latch = l.latch := by
  obtain ⟨tx, queue, h⟩ := Link.kick_cases l; rw [h]

@[simp] theorem Link.kick_discarded (l : Link) : (Link.kick l).discarded = l.discarded := by
  obtain ⟨tx, queue, h⟩ := Link.kick_cases l; rw [h]

@[simp] theorem Link.kick_level (l : Link) (c : Cond) : Link.level (Link.kick l) c = Link.level l c := by simp [Link.level]

@[simp] theorem Link.answer_rate (l : Link) (e : Result) (b : ReplyBody) : (Link.answer l e b).rate = l.rate := rfl
@[simp] theorem Link.answer_rx (l : Link) (e : Result) (b : ReplyBody) : (Link.answer l e b).rx = l.rx := rfl
@[simp] theorem Link.answer_busy (l : Link) (e : Result) (b : ReplyBody) : (Link.answer l e b).busy = l.busy := rfl
@[simp] theorem Link.answer_tx (l : Link) (e : Result) (b : ReplyBody) : (Link.answer l e b).tx = l.tx := rfl
@[simp] theorem Link.answer_restart (l : Link) (e : Result) (b : ReplyBody) : (Link.answer l e b).restart = l.restart := rfl
@[simp] theorem Link.answer_restartDue (l : Link) (e : Result) (b : ReplyBody) : (Link.answer l e b).restartDue = l.restartDue := rfl
@[simp] theorem Link.answer_enables (l : Link) (e : Result) (b : ReplyBody) : (Link.answer l e b).enables = l.enables := rfl
@[simp] theorem Link.answer_queue (l : Link) (e : Result) (b : ReplyBody) : (Link.answer l e b).queue = l.queue := rfl
@[simp] theorem Link.answer_lost (l : Link) (e : Result) (b : ReplyBody) : (Link.answer l e b).lost = l.lost := rfl
@[simp] theorem Link.answer_live (l : Link) (e : Result) (b : ReplyBody) : (Link.answer l e b).live = l.live := rfl
@[simp] theorem Link.answer_rise (l : Link) (e : Result) (b : ReplyBody) : (Link.answer l e b).rise = l.rise := rfl
@[simp] theorem Link.answer_fall (l : Link) (e : Result) (b : ReplyBody) : (Link.answer l e b).fall = l.fall := rfl
@[simp] theorem Link.answer_latch (l : Link) (e : Result) (b : ReplyBody) : (Link.answer l e b).latch = l.latch := rfl
@[simp] theorem Link.answer_discarded (l : Link) (e : Result) (b : ReplyBody) : (Link.answer l e b).discarded = l.discarded := rfl
@[simp] theorem Link.answer_level (l : Link) (e : Result) (b : ReplyBody) (c : Cond) :
    Link.level (Link.answer l e b) c = Link.level l c := rfl

@[simp] theorem State.level_kick (s : State) (c : Cond) : State.level s.kick c = State.level s c := by simp [State.level]

@[simp] theorem State.level_answer (s : State) (e : Result) (b : ReplyBody) (c : Cond) :
    State.level (s.setLink (Link.answer s.link e b)) c = State.level s c := rfl

/-! ### The turn of a request -/

theorem find_waiting {before after : List Request} {q : Request} (hb : ∀ p ∈ before, p.reply ≠ none) (hq : q.reply = none) :
    (before ++ q :: after).find? (fun p => p.reply.isNone) = some q := by
  induction before with
  | nil => simp [hq]
  | cons p rest ih =>
    have hp := hb p (by simp)
    rw [List.cons_append, List.find?_cons]
    have : p.reply.isNone = false := by simpa using Option.isSome_iff_ne_none.mpr hp
    rw [this]
    exact ih fun x hx => hb x (by simp [hx])

theorem answerWaiting_append {before after : List Request} {q : Request} (hb : ∀ p ∈ before, p.reply ≠ none) (hq : q.reply = none)
    (result : Result) (body : ReplyBody) (made : Nat) :
    answerWaiting result body made (before ++ q :: after)
      = before ++ { q with reply := some ⟨made, replyKind q.kind, q.tag, result, body⟩ } :: after := by
  induction before with
  | nil => simp [answerWaiting, hq]
  | cons p rest ih =>
    have hp := hb p (by simp)
    have : p.reply.isNone = false := by simpa using Option.isSome_iff_ne_none.mpr hp
    simp only [List.cons_append, answerWaiting, this]
    simp [ih fun x hx => hb x (by simp [hx])]

/-- A request in turn is taken as it stands (R196). -/
theorem InTurn.turn {kind tag : Byte} {s : State} (h : InTurn kind tag s) : Link.turn s.link kind tag = .taken s.link := by
  obtain ⟨hr, before, q, after, he, hb, hq, hk, ht⟩ := h
  unfold Link.turn Link.waiting
  rw [he, find_waiting hb hq]
  simp [hr, hk, ht]

@[simp] theorem State.setLink_self (s : State) : s.setLink s.link = s := rfl

/-- A request in turn whose body fits is answered as its owner says (R196). -/
theorem serve_answered {kind : Byte} {r : Req} {s : State} {fits : Bool} (act : State → Answer) (h : InTurn kind r.tag s)
    (hf : r.form = .fits) (hl : fits = true) : s.serve kind r fits act = s.answered (act s) := by
  simp [State.serve, h.turn, hf, hl]

/-- A request in turn whose body has the wrong length (R196). -/
theorem serve_wrongLength {kind : Byte} {r : Req} {s : State} {fits : Bool} (act : State → Answer) (h : InTurn kind r.tag s)
    (hf : r.form = .wrongLength ∨ fits = false) : s.serve kind r fits act = s.answered (.error .badLength) := by
  simp [State.serve, h.turn, hf]

/-- A request in turn with a coded byte that is none of its codes (R196). -/
theorem serve_unknownCode {kind : Byte} {r : Req} {s : State} {fits : Bool} (act : State → Answer) (h : InTurn kind r.tag s)
    (hf : r.form = .unknownCode) (hl : fits = true) : s.serve kind r fits act = s.answered (.error .badValue) := by
  simp [State.serve, h.turn, hf, hl]

/-! ### A request whose bytes are laid out (R199, R203, R205, R206) -/

/-- A request that carries a command's bytes reads well against it. -/
theorem Carries.reading {bytes : List Byte} {r : Req} {s : State} {kind : Byte} (h : Carries bytes r s)
    (hb : bodyForm kind bytes = .fits) : s.reading kind bytes r.form = some .fits := by
  obtain ⟨q, hq, hc⟩ | ⟨q, hq, hc, hf⟩ := h <;> simp_all [State.reading]

/-- A request received with other bytes reads by them. -/
theorem Received.reading {bytes spelled : List Byte} {s : State} {kind : Byte} {form : Form} (h : Received bytes s) :
    s.reading kind spelled form = if bodyForm kind bytes = .fits ∧ bytes ≠ spelled then none else some (bodyForm kind bytes) := by
  obtain ⟨q, hq, hc⟩ := h
  simp [State.reading, hq, hc]

/-- A request in turn that carries a command's bytes is answered as its owner says (R196). -/
theorem serveSpelled_answered {kind : Byte} {r : Req} {s : State} {spelled : List Byte} (act : State → Answer)
    (h : InTurn kind r.tag s) (hr : s.reading kind spelled r.form = some .fits) :
    s.serveSpelled kind r spelled act = s.answered (act s) := by
  have h' : InTurn kind (Req.tag { r with form := .fits }) s := h
  simp [State.serveSpelled, hr, serve_answered act h' rfl rfl]

/-! ### Its reply -/

/-- The answer of a request in turn stands in its place in the buffer, whatever else its owner has changed (R196). -/
theorem replied_answer {kind tag : Byte} {s u : State} (h : InTurn kind tag s) (hu : u.link.requests = s.link.requests)
    (hc : u.link.replyCount = s.link.replyCount) (result : Result) (body : ReplyBody) :
    Replied kind tag result body s (u.setLink (Link.answer u.link result body)).kick := by
  obtain ⟨_, before, q, after, he, hb, hq, hk, ht⟩ := h
  refine ⟨before, q, after, he, hb, hq, hk, ht, ?_, ?_⟩
  · rw [State.kick_link, Link.kick_requests]
    simp only [State.setLink_link, Link.answer, hu, hc, he, answerWaiting_append hb hq, replyKind, hk, ht]
  · rw [State.kick_link, Link.kick_replyCount]
    simp [Link.answer, hc]

/-- Answering changes the request buffer alone. -/
theorem answer_only (s : State) (result : Result) (body : ReplyBody) :
    OnlyChanges [.requests] s (s.setLink (Link.answer s.link result body)) := by
  intro p hp; cases p <;> simp_all [Part.same, Link.answer, Link.level]

@[simp] theorem answer_peel (s : State) (result : Result) (body : ReplyBody) {l : List Part} {s₀ : State}
    (h : [Part.requests] ⊆ l) : OnlyChanges l s₀ (s.setLink (Link.answer s.link result body)) ↔ OnlyChanges l s₀ s :=
  (answer_only s result body).peel h

/-- A request in turn that its owner refuses (R196). -/
theorem refuses_of {c : Instr} {kind : Byte} {tag : Byte} {s : State} {e : Result} (h : InTurn kind tag s)
    (hx : exec c s = .next (s.answered (.error e)).kick) : Refuses c kind tag e s :=
  ⟨_, hx, replied_answer h rfl rfl e .empty, by simp [State.answered]⟩

/-- What a part has when only others change. -/
theorem OnlyChanges.requests_eq {l : List Part} {s t : State} (h : OnlyChanges l s t) (hl : Part.requests ∉ l) :
    t.link.requests = s.link.requests := (h .requests hl).1.symm

theorem OnlyChanges.replyCount_eq {l : List Part} {s t : State} (h : OnlyChanges l s t) (hl : Part.requests ∉ l) :
    t.link.replyCount = s.link.replyCount := (h .requests hl).2.2.symm

/-- A request in turn that its owner accepts, its block's change leaving the request buffer as it is (R196). -/
theorem accepts_of {c : Instr} {kind tag : Byte} {s u : State} {body : ReplyBody} {l : List Part} (h : InTurn kind tag s)
    (hx : exec c s = .next (s.answered (.ok (u, body))).kick) (hu : OnlyChanges l s u) (hl : Part.requests ∉ l) :
    ∃ t, exec c s = .next t ∧ Replied kind tag .ok body s t ∧ t = (u.setLink (Link.answer u.link .ok body)).kick :=
  ⟨_, hx, replied_answer h (hu.requests_eq hl) (hu.replyCount_eq hl) .ok body, rfl⟩

/-- The arrival of a request (R196). -/
theorem arrive_only (s : State) (kind tag : Byte) (body : Option (List Byte)) :
    OnlyChanges [.requests, .discarded] s (s.setLink (Link.arrive s.link kind tag body)) := by
  intro p hp
  unfold Link.arrive
  cases p <;> simp_all [Part.same, Link.level] <;> (repeat' split) <;> simp

/-- The link that a turn hands on: the request buffer alone may have changed. -/
theorem turn_taken_only {s : State} {kind tag : Byte} {l : Link} (h : Link.turn s.link kind tag = .taken l) :
    OnlyChanges [.requests, .discarded] s (s.setLink l) := by
  unfold Link.turn at h
  repeat' split at h
  all_goals cases h
  · simp
  · exact arrive_only s _ _ _

/-- What a request changes beside its owner's change (R196). -/
theorem serve_only {M : List Part} {act : State → Answer} (hact : ∀ {t u b}, act t = .ok (u, b) → OnlyChanges M t u)
    (s : State) (kind : Byte) (r : Req) (fits : Bool) :
    OnlyChanges (.requests :: .discarded :: M) s (s.serve kind r fits act) := by
  unfold State.serve
  split
  · exact .refl _ _
  · exact (arrive_only s _ _ _).mono (by simp)
  · rename_i l hl
    have h1 : OnlyChanges (.requests :: .discarded :: M) s (s.setLink l) := (turn_taken_only hl).mono (by simp)
    have he : ∀ e, OnlyChanges (.requests :: .discarded :: M) s ((s.setLink l).answered (.error e)) := fun e =>
      h1.trans ((answer_only (s.setLink l) e .empty).mono (by simp))
    dsimp only
    split
    · exact he _
    · split
      · exact he _
      · cases ha : act (s.setLink l) with
        | error e => exact he e
        | ok p =>
          refine (h1.trans ((hact ha).mono (by simp))).trans ?_
          exact (answer_only p.1 _ _).mono (by simp)

/-- What a request whose bytes are laid out changes beside its owner's change (R196). -/
theorem serveSpelled_only {M : List Part} {act : State → Answer} (hact : ∀ {t u b}, act t = .ok (u, b) → OnlyChanges M t u)
    (s : State) (kind : Byte) (r : Req) (spelled : List Byte) :
    OnlyChanges (.requests :: .discarded :: M) s (s.serveSpelled kind r spelled act) := by
  unfold State.serveSpelled
  split
  · exact .refl _ _
  · exact serve_only hact s kind _ true

/-! ### The receiver -/

/-- The parts that an arrival of bytes can change (R195, R196). -/
abbrev Part.received : List Part := [.receiver, .requests, .discarded]

theorem arrive_fields (l : Link) (kind tag : Byte) (body : Option (List Byte)) :
    ∃ requests busy count discarded, Link.arrive l kind tag body
      = { l with requests := requests, busy := busy, replyCount := count, discarded := discarded } := by
  unfold Link.arrive
  repeat' split
  all_goals exact ⟨_, _, _, _, rfl⟩

theorem arrivals_fields (frames : List (Byte × Byte × List Byte)) (l : Link) :
    ∃ requests busy count discarded, frames.foldl (fun l f => Link.arrive l f.1 f.2.1 (some f.2.2)) l
      = { l with requests := requests, busy := busy, replyCount := count, discarded := discarded } := by
  induction frames generalizing l with
  | nil => exact ⟨_, _, _, _, rfl⟩
  | cons f rest ih =>
    obtain ⟨a, b, c, d, h⟩ := arrive_fields l f.1 f.2.1 (some f.2.2)
    obtain ⟨a', b', c', d', h'⟩ := ih { l with requests := a, busy := b, replyCount := c, discarded := d }
    exact ⟨a', b', c', d', by rw [List.foldl_cons, h, h']⟩

theorem hunted_fields (l : Link) (clock : Nat) (h : Hunt) :
    ∃ rx requests busy count discarded, Link.hunted l clock h
      = { l with rx := rx, requests := requests, busy := busy, replyCount := count, discarded := discarded } := by
  obtain ⟨a, b, c, d, e⟩ := arrivals_fields h.frames l
  unfold Link.hunted
  rw [e]
  exact ⟨_, _, _, _, _, rfl⟩

theorem byte_fields (l : Link) (clock : Nat) (b : Byte) :
    ∃ rx requests busy count discarded, Link.byte l clock b
      = { l with rx := rx, requests := requests, busy := busy, replyCount := count, discarded := discarded } := by
  unfold Link.byte
  split
  · exact ⟨_, _, _, _, _, rfl⟩
  all_goals exact hunted_fields _ _ _

theorem discardFrame_fields (l : Link) (clock : Nat) :
    ∃ rx requests busy count discarded, Link.discardFrame l clock
      = { l with rx := rx, requests := requests, busy := busy, replyCount := count, discarded := discarded } := by
  obtain ⟨a, b, c, d, e, h⟩ := hunted_fields { l with discarded := l.discarded + 1 } clock (huntAll l.rx.kept)
  unfold Link.discardFrame
  rw [h]
  exact ⟨_, _, _, _, _, rfl⟩

theorem byte_only (s : State) (clock : Nat) (b : Byte) : OnlyChanges Part.received s (s.setLink (Link.byte s.link clock b)) := by
  obtain ⟨_, _, _, _, _, h⟩ := byte_fields s.link clock b
  intro p hp
  cases p <;> simp_all [Part.same, Link.level]

theorem discardFrame_only (s : State) (clock : Nat) :
    OnlyChanges Part.received s (s.setLink (Link.discardFrame s.link clock)) := by
  obtain ⟨_, _, _, _, _, h⟩ := discardFrame_fields s.link clock
  intro p hp
  cases p <;> simp_all [Part.same, Link.level]

theorem byteArrives_only (b : Byte) (s : State) : OnlyChanges Part.received s (byteArrives b s) := byte_only s _ b

theorem frameArrives_only (b : Byte) (s : State) : OnlyChanges Part.received s (frameArrives b s) := by
  unfold frameArrives
  split
  · exact byte_only s _ b
  · exact .refl _ _

theorem framingFails_only (s : State) : OnlyChanges Part.received s (framingFails s) := by
  unfold framingFails
  split
  · exact discardFrame_only s _
  · exact discardFrame_only s _
  · exact .refl _ _

theorem gapExpires_only (s : State) : OnlyChanges (.clock :: Part.received) s (gapExpires s) := by
  unfold gapExpires
  split
  · exact .refl _ _
  · rename_i d _
    exact ((at__only s d).mono (by simp)).trans ((discardFrame_only (s.at_ d) _).mono (by simp))

theorem frameEnds_only (s : State) : OnlyChanges [.transmitter, .receiver, .requests, .restart] s (frameEnds s) := by
  refine ((kick_only s).mono (by simp)).trans ?_
  have hs : ∀ l : Link, ∃ tx rx requests busy due, Link.sent l
      = { l with tx := tx, rx := rx, requests := requests, busy := busy, restartDue := due } := by
    intro l
    unfold Link.sent
    repeat' split
    all_goals exact ⟨_, _, _, _, _, rfl⟩
  have : frameEnds s = s.kick.setLink (Link.sent s.kick.link) := rfl
  rw [this]
  obtain ⟨_, _, _, _, _, h⟩ := hs s.kick.link
  intro p hp
  cases p <;> simp_all [Part.same, Link.level]

/-- The whole of an accepted request in turn: the answer, and the state its owner leaves, on which the transmitter may take a
frame. -/
theorem accepted {c : Instr} {kind : Byte} {r : Req} {s u : State} {fits : Bool} {act : State → Answer} {body : ReplyBody}
    {M : List Part} (h : InTurn kind r.tag s) (hf : r.form = .fits) (hl : fits = true)
    (hx : exec c s = .next (s.serve kind r fits act).kick) (ha : act s = .ok (u, body)) (hu : OnlyChanges M s u)
    (hm : Part.requests ∉ M) :
    ∃ t, exec c s = .next t ∧ Replied kind r.tag .ok body s t ∧ OnlyChanges (.requests :: .transmitter :: M) s t
      ∧ t = (u.setLink (Link.answer u.link .ok body)).kick := by
  rw [serve_answered act h hf hl, ha] at hx
  refine ⟨_, hx, replied_answer h (hu.requests_eq hm) (hu.replyCount_eq hm) .ok body, ?_, rfl⟩
  rw [kick_peel _ (by simp)]
  exact (hu.mono (by simp)).trans ((answer_only u _ _).mono (by simp))

/-- The whole of an accepted request in turn whose bytes are laid out. -/
theorem acceptedSpelled {c : Instr} {kind : Byte} {r : Req} {s u : State} {spelled : List Byte} {act : State → Answer}
    {body : ReplyBody} {M : List Part} (h : InTurn kind r.tag s) (hr : s.reading kind spelled r.form = some .fits)
    (hx : exec c s = .next (s.serveSpelled kind r spelled act).kick) (ha : act s = .ok (u, body)) (hu : OnlyChanges M s u)
    (hm : Part.requests ∉ M) :
    ∃ t, exec c s = .next t ∧ Replied kind r.tag .ok body s t ∧ OnlyChanges (.requests :: .transmitter :: M) s t
      ∧ t = (u.setLink (Link.answer u.link .ok body)).kick := by
  rw [serveSpelled_answered act h hr, ha] at hx
  refine ⟨_, hx, replied_answer h (hu.requests_eq hm) (hu.replyCount_eq hm) .ok body, ?_, rfl⟩
  rw [kick_peel _ (by simp)]
  exact (hu.mono (by simp)).trans ((answer_only u _ _).mono (by simp))

/-- The whole of a refused request in turn. -/
theorem refused {c : Instr} {kind : Byte} {r : Req} {s : State} {fits : Bool} {act : State → Answer} {e : Result}
    (h : InTurn kind r.tag s) (hf : r.form = .fits) (hl : fits = true) (hx : exec c s = .next (s.serve kind r fits act).kick)
    (ha : act s = .error e) : Refuses c kind r.tag e s :=
  refuses_of h (by rw [hx, serve_answered act h hf hl, ha])

/-! ### Reports on their way out -/

@[simp] theorem Link.kick_outgoing (l : Link) : (Link.kick l).outgoing = l.outgoing := by
  unfold Link.kick
  split
  · rename_i h
    have ht := h.1
    split <;> (try split) <;> (try simp_all [Link.outgoing])
  · rfl

@[simp] theorem Link.answer_outgoing (l : Link) (result : Result) (body : ReplyBody) :
    (Link.answer l result body).outgoing = l.outgoing := rfl

/-- A report that is made joins those on their way out (R200). -/
theorem Link.report_outgoing (l : Link) (source : Source) (r : Report) (he : Link.enabled l source = true) (hq : l.queue.length < 32) :
    (Link.report l source r).outgoing = l.outgoing ++ [r] := by
  simp only [Link.report, he, if_true, if_neg (show ¬ reportRoom ≤ l.queue.length by simp [reportRoom]; omega)]
  simp [Link.outgoing]

end Sys2Proof.Machine
end

