-- ==== Sys2Proof/Laws/Answers.lean ====
section
/-! SUPPORT. What each accepted request can change, one lemma for each. -/

set_option linter.unusedSimpArgs false

namespace Sys2Proof.Machine

theorem numbered_ok {k : Nat} {act : Nr → Answer} {u : State} {b : ReplyBody} (h : numbered k act = .ok (u, b)) :
    ∃ n, Nr.ofNat? k = some n ∧ act n = .ok (u, b) := by
  unfold numbered at h
  split at h
  · cases h
  · exact ⟨_, by assumption, h⟩

theorem ordered_ok {k : Nat} {s u : State} {act : Order → Answer} {b : ReplyBody} (h : ordered k s act = .ok (u, b)) :
    ∃ o, s.orders.find k = some o ∧ act o = .ok (u, b) := by
  unfold ordered at h
  split at h
  · split at h
    · cases h
    · exact ⟨_, by assumption, h⟩
  · cases h

theorem addressed_ok {k : Nat} {act : Fin 97 → Answer} {u : State} {b : ReplyBody} (h : addressed k act = .ok (u, b)) :
    ∃ a, act a = .ok (u, b) := by
  unfold addressed at h
  split at h
  · exact ⟨_, h⟩
  · cases h

theorem stepped_ok {k : Nat} {t u : State} {b : ReplyBody} (h : stepped k t = .ok (u, b)) : u = t := by
  unfold stepped at h
  split at h <;> cases h <;> rfl

/-- Every condition is among them. -/
theorem Cond.latch_mem (c : Cond) : Part.latch c ∈ Part.latches := by
  cases c <;> (try (rename_i n; cases n)) <;> decide

theorem audioSet_only (field : Nat) (a : AudioSettings) {s u : State} {b : ReplyBody} (h : audioSet field a s = .ok (u, b)) :
    OnlyChanges (Part.of field fun n => [.mixer n]) s u := by
  unfold audioSet at h
  obtain ⟨n, hn, h⟩ := numbered_ok h
  simp only [Part.of, hn]
  try dsimp only at h
  repeat' split at h
  all_goals cases h
  all_goals ((repeat' split) <;> simp)

theorem audioStatus_only (field : Nat) {s u : State} {b : ReplyBody} (h : audioStatus field s = .ok (u, b)) :
    OnlyChanges [] s u := by
  unfold audioStatus at h
  obtain ⟨n, hn, h⟩ := numbered_ok h
  try dsimp only at h
  repeat' split at h
  all_goals cases h
  all_goals ((repeat' split) <;> simp)

theorem announceRequest_only (kind : AnnKind) (pattern : Nat) (targets : List Nat) (priority maxDuration : Nat) {s u : State} {b : ReplyBody} (h : announceRequest kind pattern targets priority maxDuration s = .ok (u, b)) :
    OnlyChanges Part.announcing s u := by
  unfold announceRequest at h
  try dsimp only at h
  repeat' split at h
  all_goals cases h
  all_goals ((repeat' split) <;> simp)

theorem announceEnd_only (id : Nat) {s u : State} {b : ReplyBody} (h : announceEnd id s = .ok (u, b)) :
    OnlyChanges Part.announcing s u := by
  unfold announceEnd at h
  try dsimp only at h
  repeat' split at h
  all_goals cases h
  all_goals ((repeat' split) <;> simp)

theorem chimeDefine_only (pattern count : Nat) (notes : List Note) (level : Nat) {s u : State} {b : ReplyBody} (h : chimeDefine pattern count notes level s = .ok (u, b)) :
    OnlyChanges [.announce] s u := by
  unfold chimeDefine at h
  try dsimp only at h
  repeat' split at h
  all_goals cases h
  all_goals ((repeat' split) <;> simp)

theorem outputSet_only (screen : Nat) (senses : Six Sense) {s u : State} {b : ReplyBody} (h : outputSet screen senses s = .ok (u, b)) :
    OnlyChanges (Part.of screen fun n => [.output n]) s u := by
  unfold outputSet at h
  obtain ⟨n, hn, h⟩ := numbered_ok h
  simp only [Part.of, hn]
  try dsimp only at h
  repeat' split at h
  all_goals cases h
  all_goals ((repeat' split) <;> simp)

theorem outputForce_only (screen : Nat) (line : LineName) (level : Level) {s u : State} {b : ReplyBody} (h : outputForce screen line level s = .ok (u, b)) :
    OnlyChanges (Part.of screen fun n => [.output n]) s u := by
  unfold outputForce at h
  obtain ⟨n, hn, h⟩ := numbered_ok h
  simp only [Part.of, hn]
  try dsimp only at h
  repeat' split at h
  all_goals cases h
  all_goals ((repeat' split) <;> simp)

theorem outputUnforce_only (screen : Nat) (line : LineName) {s u : State} {b : ReplyBody} (h : outputUnforce screen line s = .ok (u, b)) :
    OnlyChanges (Part.of screen fun n => [.output n]) s u := by
  unfold outputUnforce at h
  obtain ⟨n, hn, h⟩ := numbered_ok h
  simp only [Part.of, hn]
  try dsimp only at h
  repeat' split at h
  all_goals cases h
  all_goals ((repeat' split) <;> simp)

theorem screenSet_only (screen : Nat) (settings : ScreenSettings) {s u : State} {b : ReplyBody} (h : screenSet screen settings s = .ok (u, b)) :
    OnlyChanges (Part.of screen fun n => (Part.showing n)) s u := by
  unfold screenSet at h
  obtain ⟨n, hn, h⟩ := numbered_ok h
  simp only [Part.of, hn]
  try dsimp only at h
  repeat' split at h
  all_goals cases h
  all_goals ((repeat' split) <;> simp)

theorem cueLoad_only (screen count : Nat) (cues : List CueSpec) {s u : State} {b : ReplyBody} (h : cueLoad screen count cues s = .ok (u, b)) :
    OnlyChanges (Part.of screen fun n => (.screen n :: Part.kitchen)) s u := by
  unfold cueLoad at h
  obtain ⟨n, hn, h⟩ := numbered_ok h
  simp only [Part.of, hn]
  try dsimp only at h
  repeat' split at h
  all_goals cases h
  all_goals ((repeat' split) <;> simp)

theorem cueInsert_only (screen : Nat) (c : CueSpec) {s u : State} {b : ReplyBody} (h : cueInsert screen c s = .ok (u, b)) :
    OnlyChanges (Part.of screen fun n => (.screen n :: Part.kitchen)) s u := by
  unfold cueInsert at h
  obtain ⟨n, hn, h⟩ := numbered_ok h
  simp only [Part.of, hn]
  try dsimp only at h
  repeat' split at h
  all_goals cases h
  all_goals ((repeat' split) <;> simp)

theorem cueDelete_only (screen number : Nat) {s u : State} {b : ReplyBody} (h : cueDelete screen number s = .ok (u, b)) :
    OnlyChanges (Part.of screen fun n => (.screen n :: Part.kitchen)) s u := by
  unfold cueDelete at h
  obtain ⟨n, hn, h⟩ := numbered_ok h
  simp only [Part.of, hn]
  try dsimp only at h
  repeat' split at h
  all_goals cases h
  all_goals ((repeat' split) <;> simp)

theorem cueClear_only (screen : Nat) {s u : State} {b : ReplyBody} (h : cueClear screen s = .ok (u, b)) :
    OnlyChanges (Part.of screen fun n => (.screen n :: Part.kitchen)) s u := by
  unfold cueClear at h
  obtain ⟨n, hn, h⟩ := numbered_ok h
  simp only [Part.of, hn]
  try dsimp only at h
  repeat' split at h
  all_goals cases h
  all_goals ((repeat' split) <;> simp)

theorem showArm_only (screen : Nat) {s u : State} {b : ReplyBody} (h : showArm screen s = .ok (u, b)) :
    OnlyChanges (Part.of screen fun n => (.screen n :: .output n :: Part.kitchen)) s u := by
  unfold showArm at h
  obtain ⟨n, hn, h⟩ := numbered_ok h
  simp only [Part.of, hn]
  try dsimp only at h
  repeat' split at h
  all_goals cases h
  all_goals ((repeat' split) <;> simp)

theorem showGo_only (screen : Nat) {s u : State} {b : ReplyBody} (h : showGo screen s = .ok (u, b)) :
    OnlyChanges (Part.of screen fun n => (Part.showing n)) s u := by
  unfold showGo at h
  obtain ⟨n, hn, h⟩ := numbered_ok h
  simp only [Part.of, hn]
  try dsimp only at h
  repeat' split at h
  all_goals cases h
  all_goals ((repeat' split) <;> simp)

theorem showStop_only (screen : Nat) {s u : State} {b : ReplyBody} (h : showStop screen s = .ok (u, b)) :
    OnlyChanges (Part.of screen fun n => (Part.showing n)) s u := by
  unfold showStop at h
  obtain ⟨n, hn, h⟩ := numbered_ok h
  simp only [Part.of, hn]
  try dsimp only at h
  repeat' split at h
  all_goals cases h
  all_goals ((repeat' split) <;> simp)

theorem holdRelease_only (screen : Nat) {s u : State} {b : ReplyBody} (h : holdRelease screen s = .ok (u, b)) :
    OnlyChanges (Part.of screen fun n => (Part.showing n)) s u := by
  unfold holdRelease at h
  obtain ⟨n, hn, h⟩ := numbered_ok h
  simp only [Part.of, hn]
  try dsimp only at h
  repeat' split at h
  all_goals cases h
  all_goals ((repeat' split) <;> simp)

theorem showStatus_only (screen : Nat) {s u : State} {b : ReplyBody} (h : showStatus screen s = .ok (u, b)) :
    OnlyChanges [] s u := by
  unfold showStatus at h
  obtain ⟨n, hn, h⟩ := numbered_ok h
  try dsimp only at h
  repeat' split at h
  all_goals cases h
  all_goals ((repeat' split) <;> simp)

theorem fieldSet_only (field : Nat) (settings : FieldSettings) {s u : State} {b : ReplyBody} (h : fieldSet field settings s = .ok (u, b)) :
    OnlyChanges (Part.of field fun n => (.field n :: Part.cond (.fieldFull n))) s u := by
  unfold fieldSet at h
  obtain ⟨n, hn, h⟩ := numbered_ok h
  simp only [Part.of, hn]
  try dsimp only at h
  repeat' split at h
  all_goals cases h
  all_goals ((repeat' split) <;> simp)

theorem fieldStatus_only (field : Nat) {s u : State} {b : ReplyBody} (h : fieldStatus field s = .ok (u, b)) :
    OnlyChanges [] s u := by
  unfold fieldStatus at h
  obtain ⟨n, hn, h⟩ := numbered_ok h
  try dsimp only at h
  repeat' split at h
  all_goals cases h
  all_goals ((repeat' split) <;> simp)

theorem postRead_only (field address : Nat) {s u : State} {b : ReplyBody} (h : postRead field address s = .ok (u, b)) :
    OnlyChanges (Part.of field fun n => [.post n]) s u := by
  unfold postRead at h
  obtain ⟨n, hn, h⟩ := numbered_ok h
  simp only [Part.of, hn]
  obtain ⟨a, h⟩ := addressed_ok h
  try dsimp only at h
  repeat' split at h
  all_goals cases h
  all_goals ((repeat' split) <;> simp)

theorem postSet_only (field address : Nat) (disabled left right : Bool) (position : Nat) {s u : State} {b : ReplyBody} (h : postSet field address disabled left right position s = .ok (u, b)) :
    OnlyChanges (Part.of field fun n => (Part.cond (.fmFault n) ++ Part.counting n)) s u := by
  unfold postSet at h
  obtain ⟨n, hn, h⟩ := numbered_ok h
  simp only [Part.of, hn]
  obtain ⟨a, h⟩ := addressed_ok h
  try dsimp only at h
  repeat' split at h
  all_goals cases h
  all_goals ((repeat' split) <;> simp)

theorem postSend_only (field address : Nat) (message : BoothMessage) {s u : State} {b : ReplyBody} (h : postSend field address message s = .ok (u, b)) :
    OnlyChanges (Part.of field fun n => [.post n]) s u := by
  unfold postSend at h
  obtain ⟨n, hn, h⟩ := numbered_ok h
  simp only [Part.of, hn]
  try dsimp only at h
  repeat' split at h
  all_goals cases h
  all_goals ((repeat' split) <;> simp)

theorem exciterSet_only (field : Nat) (carrier : Bool) (channel : Nat) {s u : State} {b : ReplyBody} (h : exciterSet field carrier channel s = .ok (u, b)) :
    OnlyChanges (Part.of field fun n => (.post n :: Part.cond (.fmFault n))) s u := by
  unfold exciterSet at h
  obtain ⟨n, hn, h⟩ := numbered_ok h
  simp only [Part.of, hn]
  try dsimp only at h
  repeat' split at h
  all_goals cases h
  all_goals ((repeat' split) <;> simp)

theorem lineSet_only (field : Nat) (settings : LineSettings) {s u : State} {b : ReplyBody} (h : lineSet field settings s = .ok (u, b)) :
    OnlyChanges (Part.of field fun n => [.line n]) s u := by
  unfold lineSet at h
  obtain ⟨n, hn, h⟩ := numbered_ok h
  simp only [Part.of, hn]
  try dsimp only at h
  repeat' split at h
  all_goals cases h
  all_goals ((repeat' split) <;> simp)

theorem lineStart_only (field : Nat) {s u : State} {b : ReplyBody} (h : lineStart field s = .ok (u, b)) :
    OnlyChanges (Part.of field fun n => (Part.faulting n)) s u := by
  unfold lineStart at h
  obtain ⟨n, hn, h⟩ := numbered_ok h
  simp only [Part.of, hn]
  try dsimp only at h
  repeat' split at h
  all_goals cases h
  all_goals ((repeat' split) <;> simp)

theorem lineStop_only (field : Nat) {s u : State} {b : ReplyBody} (h : lineStop field s = .ok (u, b)) :
    OnlyChanges (Part.of field fun n => (.survey n :: Part.faulting n)) s u := by
  unfold lineStop at h
  obtain ⟨n, hn, h⟩ := numbered_ok h
  simp only [Part.of, hn]
  try dsimp only at h
  repeat' split at h
  all_goals cases h
  all_goals ((repeat' split) <;> simp)

theorem surveyStart_only (field : Nat) {s u : State} {b : ReplyBody} (h : surveyStart field s = .ok (u, b)) :
    OnlyChanges (Part.of field fun n => (.survey n :: Part.lineState n)) s u := by
  unfold surveyStart at h
  obtain ⟨n, hn, h⟩ := numbered_ok h
  simp only [Part.of, hn]
  try dsimp only at h
  repeat' split at h
  all_goals cases h
  all_goals ((repeat' split) <;> simp)

theorem surveyRead_only (field : Nat) {s u : State} {b : ReplyBody} (h : surveyRead field s = .ok (u, b)) :
    OnlyChanges [] s u := by
  unfold surveyRead at h
  obtain ⟨n, hn, h⟩ := numbered_ok h
  try dsimp only at h
  repeat' split at h
  all_goals cases h
  all_goals ((repeat' split) <;> simp)

theorem laneSet_only (lane : Nat) (settings : LaneSettings) {s u : State} {b : ReplyBody} (h : laneSet lane settings s = .ok (u, b)) :
    OnlyChanges (Part.of lane fun n => [.lane n]) s u := by
  unfold laneSet at h
  obtain ⟨n, hn, h⟩ := numbered_ok h
  simp only [Part.of, hn]
  try dsimp only at h
  repeat' split at h
  all_goals cases h
  all_goals ((repeat' split) <;> simp)

theorem admitRequest_only (lane field : Nat) (cls : VehicleClass) (occupants : Nat) (override : Bool) {s u : State} {b : ReplyBody} (h : admitRequest lane field cls occupants override s = .ok (u, b)) :
    OnlyChanges (Part.of lane fun n => [.lane n, .site]) s u := by
  unfold admitRequest at h
  obtain ⟨n, hn, h⟩ := numbered_ok h
  obtain ⟨k, _, h⟩ := numbered_ok h
  simp only [Part.of, hn]
  dsimp only at h
  repeat' split at h
  all_goals cases h
  intro p hp
  cases p <;> simp_all [Part.same, State.setLane, Four.get_set]

theorem admitCancel_only (lane id : Nat) {s u : State} {b : ReplyBody} (h : admitCancel lane id s = .ok (u, b)) :
    OnlyChanges (Part.of lane fun n => [.lane n]) s u := by
  unfold admitCancel at h
  obtain ⟨n, hn, h⟩ := numbered_ok h
  simp only [Part.of, hn]
  try dsimp only at h
  repeat' split at h
  all_goals cases h
  all_goals ((repeat' split) <;> simp)

theorem countRead_only (lane : Nat) {s u : State} {b : ReplyBody} (h : countRead lane s = .ok (u, b)) :
    OnlyChanges [] s u := by
  unfold countRead at h
  obtain ⟨n, hn, h⟩ := numbered_ok h
  try dsimp only at h
  repeat' split at h
  all_goals cases h
  all_goals ((repeat' split) <;> simp)

theorem setSite_only (value : BitVec 32) {s u : State} {b : ReplyBody} (h : setSite value s = .ok (u, b)) :
    OnlyChanges [.site] s u := by
  cases h
  exact site_only s _

theorem clearLane_only (lane : Nat) {s u : State} {b : ReplyBody} (h : clearLane lane s = .ok (u, b)) :
    OnlyChanges (Part.of lane fun n => [.lane n]) s u := by
  unfold clearLane at h
  obtain ⟨n, hn, h⟩ := numbered_ok h
  simp only [Part.of, hn]
  try dsimp only at h
  repeat' split at h
  all_goals cases h
  all_goals ((repeat' split) <;> simp)

theorem menuReplace_only (count : Nat) (items : List MenuItem) {s u : State} {b : ReplyBody} (h : menuReplace count items s = .ok (u, b)) :
    OnlyChanges [.orders] s u := by
  unfold menuReplace at h
  try dsimp only at h
  repeat' split at h
  all_goals cases h
  all_goals ((repeat' split) <;> simp)

theorem menuAppend_only (count : Nat) (items : List MenuItem) {s u : State} {b : ReplyBody} (h : menuAppend count items s = .ok (u, b)) :
    OnlyChanges [.orders] s u := by
  unfold menuAppend at h
  try dsimp only at h
  repeat' split at h
  all_goals cases h
  all_goals ((repeat' split) <;> simp)

theorem menuItemSet_only (code price : Nat) (availability : Availability) {s u : State} {b : ReplyBody} (h : menuItemSet code price availability s = .ok (u, b)) :
    OnlyChanges [.orders] s u := by
  unfold menuItemSet at h
  try dsimp only at h
  repeat' split at h
  all_goals cases h
  all_goals ((repeat' split) <;> simp)

theorem stationSet_only (staff : Four Nat) (limit : Nat) {s u : State} {b : ReplyBody} (h : stationSet staff limit s = .ok (u, b)) :
    OnlyChanges (.orders :: Part.cond .kitchenSaturated) s u := by
  unfold stationSet at h
  try dsimp only at h
  repeat' split at h
  all_goals cases h
  all_goals ((repeat' split) <;> simp)

theorem orderingSet_only (field : Nat) (isOpen : Bool) {s u : State} {b : ReplyBody} (h : orderingSet field isOpen s = .ok (u, b)) :
    OnlyChanges (Part.of field fun n => (.orders :: Part.cond (.orderingOpen n))) s u := by
  unfold orderingSet at h
  obtain ⟨n, hn, h⟩ := numbered_ok h
  simp only [Part.of, hn]
  try dsimp only at h
  repeat' split at h
  all_goals cases h
  all_goals ((repeat' split) <;> simp)

theorem orderAccept_only (number : Nat) {s u : State} {b : ReplyBody} (h : orderAccept number s = .ok (u, b)) :
    OnlyChanges Part.notices s u := by
  unfold orderAccept at h
  obtain ⟨o, _, h⟩ := ordered_ok h
  try dsimp only at h
  repeat' split at h
  all_goals first | cases h; done | (have h := stepped_ok h; subst h; simp)

theorem orderPreparing_only (number : Nat) {s u : State} {b : ReplyBody} (h : orderPreparing number s = .ok (u, b)) :
    OnlyChanges Part.notices s u := by
  unfold orderPreparing at h
  obtain ⟨o, _, h⟩ := ordered_ok h
  try dsimp only at h
  repeat' split at h
  all_goals first | cases h; done | (have h := stepped_ok h; subst h; simp)

theorem orderReady_only (number window : Nat) {s u : State} {b : ReplyBody} (h : orderReady number window s = .ok (u, b)) :
    OnlyChanges Part.kitchen s u := by
  unfold orderReady at h
  split at h
  rotate_left
  · cases h
  obtain ⟨o, _, h⟩ := ordered_ok h
  try dsimp only at h
  repeat' split at h
  all_goals first | cases h; done | (have h := stepped_ok h; subst h; simp)

theorem orderCollected_only (number : Nat) {s u : State} {b : ReplyBody} (h : orderCollected number s = .ok (u, b)) :
    OnlyChanges Part.kitchen s u := by
  unfold orderCollected at h
  obtain ⟨o, _, h⟩ := ordered_ok h
  try dsimp only at h
  repeat' split at h
  all_goals cases h
  all_goals ((repeat' split) <;> simp)

theorem orderCancel_only (number : Nat) (reason : BoothReason) {s u : State} {b : ReplyBody} (h : orderCancel number reason s = .ok (u, b)) :
    OnlyChanges Part.kitchen s u := by
  unfold orderCancel at h
  obtain ⟨o, _, h⟩ := ordered_ok h
  try dsimp only at h
  repeat' split at h
  all_goals cases h
  all_goals ((repeat' split) <;> simp)

theorem orderRead_only (number : Nat) {s u : State} {b : ReplyBody} (h : orderRead number s = .ok (u, b)) :
    OnlyChanges [] s u := by
  unfold orderRead at h
  obtain ⟨o, _, h⟩ := ordered_ok h
  try dsimp only at h
  repeat' split at h
  all_goals cases h
  all_goals ((repeat' split) <;> simp)

theorem identify_only {s u : State} {b : ReplyBody} (h : identify s = .ok (u, b)) :
    OnlyChanges [] s u := by
  cases h; exact .refl _ _

theorem linkStatus_only {s u : State} {b : ReplyBody} (h : linkStatus s = .ok (u, b)) :
    OnlyChanges [] s u := by
  cases h; exact .refl _ _

theorem reportMask_only (op : MaskOp) (selector : Selector) (bits : BitVec 40) {s u : State} {b : ReplyBody} (h : reportMask op selector bits s = .ok (u, b)) :
    OnlyChanges [.enables] s u := by
  unfold reportMask at h
  split at h <;> cases h
  intro p hp
  cases p <;> cases selector <;> simp_all [Part.same, Link.level, Link.mask]

theorem conditionRead_only {s u : State} {b : ReplyBody} (h : conditionRead s = .ok (u, b)) :
    OnlyChanges Part.latches s u := by
  cases h
  intro p hp
  cases p <;> simp_all [Part.same, Link.level]
  rename_i c
  exact absurd (Cond.latch_mem c) hp

theorem growRun_bounds (fits : Nat → Bool) (more k : Nat) : k ≤ growRun fits more k ∧ growRun fits more k ≤ k + more := by
  induction more generalizing k with
  | zero => simp [growRun]
  | succ more ih =>
    unfold growRun
    split
    · have := ih (k + 1); omega
    · omega

/-- A run is no longer than the count and what is left of the collection, and not empty where an entry stands at its start
(R204). -/
theorem runLength_bounds (collection param start count : Nat) (entries : List ListEntry) :
    runLength collection param start count entries ≤ min count (entries.length - start)
      ∧ (0 < min count (entries.length - start) → 1 ≤ runLength collection param start count entries) := by
  unfold runLength
  dsimp only
  split
  · omega
  · have := growRun_bounds (fun k => decide (runSize collection param start k entries ≤ 512))
      (min count (entries.length - start) - 1) 1
    omega

theorem listRead_only (collection param start count : Nat) {s u : State} {b : ReplyBody} (h : listRead collection param start count s = .ok (u, b)) :
    OnlyChanges [] s u := by
  unfold listRead at h
  try dsimp only at h
  repeat' split at h
  all_goals cases h
  all_goals ((repeat' split) <;> simp)

theorem restartAccepted_only (scope : Scope) {s u : State} {b : ReplyBody} (h : restartAccepted scope s = .ok (u, b)) :
    OnlyChanges [.restart] s u := by
  cases h
  intro p hp
  cases p <;> simp_all [Part.same, Link.level]

end Sys2Proof.Machine
end

