-- ==== Sys2Proof/Laws/Items.lean ====
section
/-! SUPPORT. What numbers are as bytes, and how the items of a report stand in its body. -/

namespace Sys2Proof.Machine

/-- A number stands in as many bytes as it is given. -/
@[simp] theorem lowBytes_length (w v : Nat) : (lowBytes w v).length = w := by
  induction w generalizing v with
  | zero => rfl
  | succ w ih => simp [lowBytes, ih]

/-- Bytes low byte first give back the number that fits in them. -/
theorem lowBytes_value (w v : Nat) (h : v < 256 ^ w) : (lowBytes w v).foldr (fun b rest => b.toNat + 256 * rest) 0 = v := by
  induction w generalizing v with
  | zero => simp [lowBytes]; omega
  | succ w ih =>
    have high : v / 256 < 256 ^ w := by rw [Nat.pow_succ] at h; omega
    simp only [lowBytes, List.foldr_cons, ih _ high]
    simp [byteOf]; omega

/-- A number takes at least the bytes that its range asks for. -/
theorem Item.number_leastBytes (kind : Byte) (name : ItemName) (v : Nat) : name.leastBytes ≤ (Item.bytes kind (.number name v)).length := by
  simp [Item.bytes]

/-- The body of a report stays within a frame's (R194). -/
theorem Report.bytes_length (r : Report) : (Report.bytes r).length ≤ 511 := by
  cases r <;> simp only [Report.bytes, List.length_take, List.length_singleton] <;> omega

end Sys2Proof.Machine
end

