-- ==== Sys2Proof/Tests/Slice0.lean ====
section
/-! SUPPORT. Tests: terms that are not well formed, the manual's worked figures, and for each statement of the certificates a state
and operands that meet what it assumes. -/

open Sys2Proof Sys2Proof.Machine

namespace Sys2Proof.Tests

/- One test after another: each evaluation in the kernel waits in a thread of its own otherwise. -/
set_option Elab.async false

/-! ### States to test on -/

/-- A request with tag 7 whose body reads well. -/
def req : Req := ⟨7#8, .fits⟩

/-- The part listening, with its STARTED sent and nothing waiting. -/
def ready : State := State.reset.setLink { State.reset.link with rx := ⟨.hunt, [], none⟩, queue := [] }

/-- One request waits, of a kind and tag 7, brought by its own command. -/
def asking (kind : Byte) (s : State) : State := s.setLink { s.link with restart := none, requests := [⟨kind, 7#8, none, none⟩] }

/-- One request waits, of a kind and tag 7, received with these body bytes. -/
def receiving (kind : Byte) (body : List Byte) (s : State) : State :=
  s.setLink { s.link with restart := none, requests := [⟨kind, 7#8, some body, none⟩] }

/-- The link of the part that listens, changed. -/
def linked (f : Link → Link) : State := ready.setLink (f ready.link)

/-- Screen 1 changed. -/
def screened (f : Screen → Screen) : State := ready.setScreen .one (f Screen.reset)

/-- Screen 1 in a show state at a position with cues. -/
def showing (state : ShowState) (position : Nat) (cues : List Cue) : State :=
  screened fun x => { x with state := state, position := position, cues := cues }

/-- Field 1 at the end of a block of 96 sample frames. -/
def whole (s : State) : State := s.setMixer .one { s.mixers.get .one with block := List.replicate 96 ⟨0, 0⟩ }

/-- The part listening, with field 1 at the end of a block. -/
def blockWhole : State := whole ready

/-- Line 1 changed. -/
def lined (f : LineCtl → LineCtl) : State := ready.setLine .one (f (LineCtl.resetWith LineSettings.reset))

/-- An unfired cue. -/
def cue (number position : Nat) (action : CueAction) : Cue := ⟨number, position, action, false⟩

/-- A fired mark cue. -/
def firedCue (number position : Nat) : Cue := ⟨number, position, .mark 1, true⟩

/-- A menu item of station 1 at 100 cents and 60 s. -/
def item (code : Nat) : MenuItem := ⟨code, [], 100, 1, 60, .available⟩

/-- An order of post 5 of field 1, left bay, of one item of work 60 at station 1. -/
def order (number : Nat) (state : OrderState) : Order :=
  { number := number, field := .one, post := 5, side := .left, lines := [⟨10, 1⟩], work := ⟨60, 0, 0, 0⟩, total := 100,
    mode := .pickup, state := state, placed := 0, stateEntered := 0, estimate := 60, window := none, owed := none,
    reminderSent := false, bayEmptyReported := false, acceptance := none, reminder := none, stale := none, bayEmpty := none }

/-- The part with these live orders. -/
def serving (orders : List Order) : State :=
  ready.setOrders { ready.orders with live := orders, menu := [item 10], backlog := ⟨60 * orders.length, 0, 0, 0⟩ }

/-- An announcement for field 1. -/
def ann (id : Nat) (kind : AnnKind) (pattern priority : Nat) (phase : AnnPhase) : Ann :=
  ⟨id, kind, pattern, ⟨true, false, false, false⟩, priority, 30, .host, phase, ⟨true, false, false, false⟩, some 30000⟩

/-- The part with an active announcement. -/
def announcing (a : Ann) : State := ready.setAnnounce { ready.announce with active := [a] }

/-- A post that is PRESENT with its left bay OCCUPIED and its right bay EMPTY. -/
def presentPost : Node :=
  { Node.reset with state := .present, left := ⟨.occupied, true, none⟩, right := ⟨.empty, true, some 0⟩ }

/-- Line 1 RUNNING with a poll under way and post 5 in a record. -/
def polling (poll : Poll) (v : Node) : State :=
  (lined fun l => { l with state := .running, wire := .exchange, poll := some poll }).setNode .one 5 v

/-- A down message for post 5. -/
def message (mark : DownMark) : DownEntry := ⟨3, 5, .chime .left 1, .host, 0, mark⟩

/-- A state with messages in the down queue of line 1. -/
def queueing (entries : List DownEntry) (s : State) : State := s.setPost .one { s.posts.get .one with queue := entries }

/-- The bits of a reply in a window. -/
def replyBits (bytes : List Byte) : List Bool := flag ++ frameBits (withCrc bytes) ++ flag

/-- Lane 1 sampled and armed with both loops LOW, changed. -/
def laned (f : Lane → Lane) : State := ready.setLane .one (f { ready.lane .one with sampled := true, armed := true })

/-- Line 1 with post 5 PRESENT and two messages for it, of which the first has reached the age limit. -/
def aging (f : LineCtl → LineCtl) : State :=
  queueing [message (.outstanding 1 0), { message .waiting with number := 4, entered := 50000 }]
    { (lined f).setNode .one 5 presentPost with clock := 60000 }

/-- Lane 1 with the last vehicle of an entry on loop B, and an admission for field 2, where this many cars are inbound. -/
def arriving (cars : Nat) : State :=
  (laned fun l => { l with decoder := .inB, loopB := ⟨true, 3, .running 9⟩, queue := [⟨65, .two, .car, 2, 0, 120000⟩] }).setField .two
    { Occupancy.resetWith FieldSettings.reset with inbound := (List.range cars).map fun k => ⟨k + 1, 0, 900000⟩ }

/-- Whether a command loses no report of a source. -/
def losesNone (source : Source) (c : Instr) (s : State) : Bool :=
  Link.enabled s.link source && match exec c s with
    | .next t => !t.link.lost
    | _ => false

/-- What `losesNone` finds. -/
theorem heard_of_losesNone {source : Source} {c : Instr} {s : State} (h : losesNone source c s = true) :
    ∃ t, exec c s = .next t ∧ Heard source s t := by
  unfold losesNone at h
  cases e : exec c s with
  | next t =>
    simp only [e, Bool.and_eq_true, Bool.not_eq_true'] at h
    exact ⟨t, rfl, h.1, h.2⟩
  | fault f => simp [e] at h
  | refused r => simp [e] at h

/-- A request of kind `kind` is next in turn. -/
theorem asking_inTurn (kind : Byte) (s : State) : InTurn kind req.tag (asking kind s) :=
  ⟨rfl, [], _, [], rfl, fun _ h => absurd h (List.not_mem_nil), rfl, rfl, rfl⟩

/-- A request of kind `kind` that was received is next in turn. -/
theorem receiving_inTurn (kind : Byte) (body : List Byte) (s : State) : InTurn kind req.tag (receiving kind body s) :=
  ⟨rfl, [], _, [], rfl, fun _ h => absurd h (List.not_mem_nil), rfl, rfl, rfl⟩

/-- It was received with its bytes. -/
theorem receiving_received (kind : Byte) (body : List Byte) (s : State) : Received body (receiving kind body s) := ⟨_, rfl, rfl⟩

/-- A request that its own command brought carries what its command spells. -/
theorem asking_carries (kind : Byte) (bytes : List Byte) (s : State) : Carries bytes req (asking kind s) :=
  .inr ⟨_, rfl, rfl, rfl⟩

/-! ### Terms that are not well formed -/

/-- A known kind is no unknown request. -/
theorem test_unknownRequest_of_known_kind : (Instr.unknownRequest 0#8 0x01#8).wellFormed = false := by decide

/-- SOURCES has one byte. -/
theorem test_reportMask_sources_beyond_a_byte :
    (Instr.reportMaskWrite req .sources 0x100#40).wellFormed = false ∧ (Instr.reportMaskSet req .sources 0x100#40).wellFormed = false
      ∧ (Instr.reportMaskClear req .sources 0x100#40).wellFormed = false
      ∧ (Instr.reportMaskWrite req .rise 0x100#40).wellFormed = true := by decide

/-- Lists longer than the longest body. -/
theorem test_lists_beyond_a_body :
    (Instr.cueLoad req 1 1 (List.replicate 513 ⟨1, 0, .holdPoint⟩)).wellFormed = false
      ∧ (Instr.chimeDefine req 1 1 (List.replicate 513 ⟨1, 20⟩) 0).wellFormed = false
      ∧ (Instr.announce req .live 0 (List.replicate 513 1) 1 0).wellFormed = false
      ∧ (Instr.menuLoadReplace req 1 (List.replicate 513 (item 1))).wellFormed = false
      ∧ (Instr.menuLoadAppend req 1 (List.replicate 513 (item 1))).wellFormed = false
      ∧ (Instr.postSend req 1 1 (.display .left 1 1 (List.replicate 513 0#8))).wellFormed = false := by decide +kernel

/-- No samples, too few samples, too many bits. -/
theorem test_samples_that_no_pin_gives :
    (Instr.frameCounted .one []).wellFormed = false ∧ (Instr.lfaultLevelChange .one []).wellFormed = false
      ∧ (Instr.loopLevelChange .one []).wellFormed = false ∧ (Instr.surveyStepLaunch .one [0]).wellFormed = false
      ∧ (Instr.replyWindowEnd .one (List.replicate 1001 true)).wellFormed = false
      ∧ (Instr.replyWindowEnd .one (List.replicate 1000 true)).wellFormed = true := by decide +kernel

/-- Names that no record bears. -/
theorem test_names_that_no_record_bears :
    (Instr.announceDurationExpiry 256).wellFormed = false ∧ (Instr.downMessageAgeLimit .one 0).wellFormed = false
      ∧ (Instr.admissionExpiry .one 65536).wellFormed = false ∧ (Instr.seatTimeout .one 64).wellFormed = false
      ∧ (Instr.acceptanceTimerExpiry 1000).wellFormed = false ∧ (Instr.reminderTimerExpiry 0).wellFormed = false
      ∧ (Instr.staleTimerExpiry 1000).wellFormed = false ∧ (Instr.bayEmptyTimerExpiry 0).wellFormed = false
      ∧ (Instr.bayEmptyTimerExpiry 999).wellFormed = true := by decide

/-! ### Worked figures of the manual -/

/-- The check value of the CRC (R84, R194). -/
theorem test_crc_of_123456789 :
    crc16 [0x31#8, 0x32#8, 0x33#8, 0x34#8, 0x35#8, 0x36#8, 0x37#8, 0x38#8, 0x39#8] = 0x29B1#16 := by decide +kernel

/-- An IDENTIFY frame with tag 7: marker, length 2, kind, tag, check. -/
theorem test_identify_frame : (linkFrame 0x01#8 7#8 []).take 5 = [0xC5#8, 0x02#8, 0x00#8, 0x01#8, 0x07#8] := by decide +kernel

/-- The default ramps take 123 down and 31 up a block (R54). -/
theorem test_ramp_steps : rampStep 1024 25 = 123 ∧ rampStep 1024 100 = 31 := by decide

/-- The two distances of R131. -/
theorem test_distances : distanceOf 2047 99 = 30378 ∧ distanceOf 412 66 = 4076 := by decide

/-- The sine at a quarter, a half and three quarters of a period, and at a twelfth, whose half rounds up (R72). -/
theorem test_sine : sineSample 1000 12 = 32767 ∧ sineSample 1000 24 = 0 ∧ sineSample 1000 36 = -32767
    ∧ sineSample 1000 4 = 16384 := by decide +kernel

/-- Rounding of products over 4096 (section 3.7). -/
theorem test_roundAway : roundAway 2048 = 1 ∧ roundAway 2047 = 0 ∧ roundAway (-2048) = -1 ∧ roundAway (-2047) = 0 := by decide

/-- A GOOD reply, one of another node, a broken one, and silence (R87). -/
theorem test_windowOutcome :
    windowOutcome 5 (replyBits [5#8, 3#8]) = (.good, withCrc [5#8, 3#8]) ∧ (windowOutcome 6 (replyBits [5#8, 3#8])).1 = .wrongAddress
      ∧ (windowOutcome 5 (flag ++ frameBits [5#8, 3#8, 0#8, 0#8] ++ flag)).1 = .crc
      ∧ (windowOutcome 5 (List.replicate 1000 true)).1 = .noReply
      ∧ (windowOutcome 5 (flag ++ frameBits [5#8, 3#8])).1 = .abort := by decide +kernel

/-- Seven ones are sent with a zero after six of them (R82). -/
theorem test_stuffing : frameBits [0x7F#8] = [true, true, true, true, true, true, false, true, false] := by decide

/-- The runs of a tap memory, and the first of equals (R130). -/
theorem test_scanRuns : scanRuns 16 none [(3, 20), (4, 20), (5, -20), (9, 15), (10, 16)]
    = [⟨5, true, 3, 20⟩, ⟨6, false, 5, 20⟩, ⟨11, true, 10, 16⟩] := by decide

/-- An entry and a tailgating entry pass through the decoder (R138, R140). -/
theorem test_decode_entry : decode .inB 0 .b false = (.clear, 0, [⟨.entry, false, false⟩])
    ∧ decode .inB 0 .a true = (.inAB, 1, []) ∧ decode .inB 3 .a true = (.inAB, 3, [⟨.entry, false, true⟩]) := by decide

/-- A counter passes over the values in use and wraps to 1. -/
theorem test_takeCount : takeCount 255 [254, 255, 1] 254 = 2 ∧ takeCount 255 [] 7 = 7 := by decide

/-- A cue takes its place after those at its own position (R4). -/
theorem test_placed : (placed [firedCue 1 5, firedCue 2 9] ⟨3, 5, .holdPoint⟩).map (·.number) = [1, 3, 2] := by decide

/-! ### States that meet what the statements assume -/

/-- A command stands at the front of a queue; another queue is empty. -/
theorem test_meets_StepRunsTheFrontCommand :
    ({ ready with pending := [.sampleInstant] } : State).pending = .sampleInstant :: [] ∧ ready.pending = [] := by decide

/-- A command answers a next state. -/
theorem test_meets_CommandsLeaveTheRestUnchanged : ∃ t, exec .framingError ready = .next t := ⟨_, rfl⟩

/-- A RESTART is next in turn, brought by its command, and received with each scope, with scopes that are none, and with no byte
and two; one is pending before a request; one is due, for ALL and STATE; its reply is being sent. -/
theorem test_meets_RestartIsAnsweredThenTakesEffect :
    InTurn 0x02#8 req.tag (asking 0x02#8 ready) ∧ Carries [0x01#8] req (asking 0x02#8 ready) ∧ Carries [0x02#8] req (asking 0x02#8 ready)
      ∧ (∀ body, InTurn 0x02#8 req.tag (receiving 0x02#8 body ready) ∧ Received body (receiving 0x02#8 body ready))
      ∧ (([] : List Byte).length ≠ 1 ∧ [0x01#8, 0x01#8].length ≠ 1 ∧ (0x03#8 : Byte) ≠ 0x01#8 ∧ (0x03#8 : Byte) ≠ 0x02#8
        ∧ (0x00#8 : Byte) ≠ 0x01#8 ∧ (0x00#8 : Byte) ≠ 0x02#8)
      ∧ (request? (.identify req) = some (0x01#8, req) ∧ (linked fun l => { l with restart := some .all }).link.restart ≠ none)
      ∧ (let s := linked fun l => { l with restart := some .all, restartDue := true }
         s.link.restartDue = true ∧ s.link.restart = some .all)
      ∧ (let r : Reply := ⟨0, 0x82#8, 7#8, .ok, .empty⟩
         let s := linked fun l => { l with restart := some .state, tx := .reply r }
         s.link.tx = .reply r ∧ r.kind = 0x82#8 ∧ r.result = .ok ∧ s.link.restart = some .state
         ∧ Nr.one.toNat = (s.mixers.get .one).settings.route) :=
  ⟨asking_inTurn _ _, asking_carries _ _ _, asking_carries _ _ _, fun _ => ⟨receiving_inTurn _ _ _, receiving_received _ _ _⟩,
    by decide, by decide⟩

/-- A receiver in HUNT with room for a request, and the longest body. -/
theorem test_meets_SentFrameIsReceived :
    ready.link.rx = ⟨.hunt, [], none⟩ ∧ (List.replicate 512 0#8).length ≤ 512 ∧ ready.link.requests.length < 4 := by decide +kernel

/-- The receiver in each state, with lengths at both ends of their range. -/
theorem test_meets_ReceiverTakesBytes :
    State.reset.link.rx.state = .startUp ∧ ready.link.rx = ⟨.hunt, [], none⟩ ∧ (0xC4#8 : Byte) ≠ 0xC5#8
      ∧ ((linked fun l => { l with rx := ⟨.length, [], some 50⟩ }).link.rx.state = .length)
      ∧ (2 ≤ (2#8).toNat + 256 * (0#8).toNat ∧ (2#8).toNat + 256 * (2#8).toNat ≤ 514)
      ∧ (linked fun l => { l with rx := ⟨.length, [2#8], some 50⟩ }).link.rx.kept = [2#8]
      ∧ (linked fun l => { l with rx := ⟨.frame, [2#8, 0#8, 1#8, 7#8], some 50⟩ }).link.rx.kept = 2#8 :: 0#8 :: [1#8, 7#8]
      ∧ [1#8, 7#8].length + 1 < (2#8 : Byte).toNat + 256 * (0#8 : Byte).toNat + 2 := by decide

/-- The last byte of a valid frame with room, with a full buffer, and with full busy replies; the last byte of a frame whose check
fails; a gap timer that runs; a framing error in FRAME, LENGTH and HUNT. -/
theorem test_meets_FramesAreHandedOnOrDiscarded :
    (marker :: [2#8, 0#8, 1#8, 7#8, 0x7E#8] ++ [0x2A#8] = linkFrame 1#8 7#8 [] ∧ ([] : List Byte).length ≤ 512)
      ∧ (let waits : Request := ⟨1#8, 7#8, some [], none⟩
         let rx : Receiver := ⟨.frame, [2#8, 0#8, 1#8, 7#8, 0x7E#8], some 50⟩
         let busy : Reply := ⟨0, 0x81#8, 7#8, .busy, .empty⟩
         (linked fun l => { l with rx := rx, requests := [waits, waits, waits] }).link.requests.length < 4
         ∧ 4 ≤ (linked fun l => { l with rx := rx, requests := [waits, waits, waits, waits] }).link.requests.length
         ∧ (linked fun l => { l with rx := rx, busy := [busy, busy, busy] }).link.busy.length < 4
         ∧ 4 ≤ (linked fun l => { l with rx := rx, busy := [busy, busy, busy, busy] }).link.busy.length)
      ∧ (let bad : List Byte := [2#8, 0#8, 1#8, 7#8, 0#8, 0#8]
         crcMatches bad = false ∧ (huntAll bad).frames = [] ∧ [1#8, 7#8, 0#8, 0#8].length = (2#8 : Byte).toNat + 2)
      ∧ (linked fun l => { l with rx := ⟨.frame, [2#8, 0#8], some 50⟩ }).link.rx.gap = some 50
      ∧ (∀ b ∈ ([2#8, 0#8] : List Byte), b ≠ 0xC5#8) := by decide +kernel

/-- A reply, a busy reply, STARTED and another report being sent; replies and reports that wait; nothing that waits. -/
theorem test_meets_TransmitterSendsRepliesFirst :
    let r : Reply := ⟨3, 0x82#8, 7#8, .ok, .empty⟩
    let other : QueuedReport := ⟨false, .orderNew 1 .one 5 .left .pickup [] 0 0 (.all 0)⟩
    ((linked fun l => { l with tx := .reply r, restart := some .all }).link.tx = .reply r ∧ r.kind = 0x82#8 ∧ r.result = .ok)
      ∧ (linked fun l => { l with tx := .busy r }).link.tx = .busy r
      ∧ (let s := State.reset.setLink { State.reset.link with tx := .report ⟨false, .started .powerOn⟩ }
         s.link.tx = .report ⟨false, .started .powerOn⟩ ∧ s.link.rx.state = .startUp)
      ∧ (let s := linked fun l => { l with tx := .report other, busy := [r], requests := [⟨2#8, 7#8, some [], some r⟩], queue := [other] }
         s.link.tx = .report other ∧ s.link.restartDue = false ∧ r ∈ s.link.busy ∧ (∃ p ∈ s.link.requests, p.reply = some r))
      ∧ (let s := linked fun l => { l with tx := .report other, queue := [other] }
         s.link.busy = [] ∧ (∀ p ∈ s.link.requests, p.reply = none) ∧ s.link.queue = other :: []) := by
  decide

/-- A source that is disabled, a full queue, a queue with one place; a level that stays, a change in a direction that is not enabled,
and one that is, of an audio condition too. -/
theorem test_meets_ReportsAndConditionsAreMade :
    let q : QueuedReport := ⟨false, .started .powerOn⟩
    Link.enabled (linked fun l => { l with enables := 0#8 }).link .show = false
      ∧ (let s := linked fun l => { l with queue := List.replicate 32 q }
         Link.enabled s.link .show = true ∧ 32 ≤ s.link.queue.length)
      ∧ (linked fun l => { l with queue := List.replicate 31 q }).link.queue.length < 32
      ∧ State.level ready (.lineUp .one) = false ∧ State.level ready (.lineUp .one) ≠ true
      ∧ (linked fun l => { l with rise := 0#38 }).link.rise.getLsbD (Cond.number (.lineUp .one)) = false
      ∧ ready.link.rise.getLsbD (Cond.number (.lineUp .one)) = true
      ∧ (Link.enabled ready.link .condition = true ∧ Cond.number .announceSourcePresent ≤ 8
        ∧ Link.enabled ready.link .audio = true)
      ∧ Link.enabled (linked fun l => { l with enables := 0x7F#8 }).link .condition = false
      ∧ Link.enabled (linked fun l => { l with enables := 0xFD#8 }).link .audio = false := by decide +kernel

/-- Requests in turn that read well, have the wrong length, or an unknown code, by their commands' forms and by their bytes; one that
spells another command; an unknown kind, below 80h and above. -/
theorem test_meets_RequestsAreAnsweredInTurn :
    InTurn 0x01#8 req.tag (asking 0x01#8 ready) ∧ InTurn 0x7F#8 7#8 (asking 0x7F#8 ready) ∧ InTurn 0x81#8 7#8 (asking 0x81#8 ready)
      ∧ request? (.identify req) = some (0x01#8, req) ∧ readsAs (.identify req) 0x01#8 req (asking 0x01#8 ready) = some .fits
      ∧ (readsAs (.identify ⟨7#8, .unknownCode⟩) 0x01#8 ⟨7#8, .unknownCode⟩ (asking 0x01#8 ready) = some .unknownCode
        ∧ readsAs (.showGo ⟨7#8, .wrongLength⟩ 1) 0x16#8 ⟨7#8, .wrongLength⟩ (asking 0x16#8 ready) = some .wrongLength
        ∧ readsAs (.restartAll req) 0x02#8 req (receiving 0x02#8 [] ready) = some .wrongLength
        ∧ readsAs (.restartAll req) 0x02#8 req (receiving 0x02#8 [0x03#8] ready) = some .unknownCode
        ∧ readsAs (.restartAll req) 0x02#8 req (receiving 0x02#8 [0x02#8] ready) = none)
      ∧ InTurn 0x02#8 req.tag (receiving 0x02#8 [0x02#8] ready) ∧ 0x7F#8 ∉ knownKinds ∧ 0x81#8 ∉ knownKinds :=
  ⟨asking_inTurn _ _, asking_inTurn _ _, asking_inTurn _ _, by decide, by decide, by decide, receiving_inTurn _ _ _, by decide⟩

/-- No request waits: with room, and with a full buffer; another request is in turn. -/
theorem test_meets_RequestCommandBringsItsFrame :
    let answered : Request := ⟨1#8, 7#8, some [], some ⟨0, 0x81#8, 7#8, .ok, .empty⟩⟩
    request? (.identify req) = some (0x01#8, req)
      ∧ (let s := linked fun l => { l with requests := [answered, answered, answered] }
         s.link.restart = none ∧ s.link.rx.state = .hunt ∧ (∀ q ∈ s.link.requests, q.reply ≠ none) ∧ s.link.requests.length < 4)
      ∧ (let s := linked fun l => { l with requests := List.replicate 4 answered }
         (∀ q ∈ s.link.requests, q.reply ≠ none) ∧ 4 ≤ s.link.requests.length ∧ s.link.busy.length < 4)
      ∧ Link.waiting (asking 0x06#8 ready).link = some ⟨0x06#8, 7#8, none, none⟩ ∧ (0x06#8 : Byte) ≠ 0x01#8 := by decide

/-- REPORT_MASK with a bit that names no condition, and without; each received with its bytes, with sets of a wrong length, and with
codes that are none; the requests without a body, and with one. -/
theorem test_meets_LinkRequestsAreAnswered :
    InTurn 0x03#8 req.tag (asking 0x03#8 ready) ∧ InTurn 0x01#8 req.tag (asking 0x01#8 ready)
      ∧ InTurn 0x06#8 req.tag (asking 0x06#8 ready) ∧ InTurn 0x04#8 req.tag (asking 0x04#8 ready)
      ∧ (Selector.rise ≠ .sources ∧ (0x4000000000#40 : BitVec 40).getLsbD 38 = true)
      ∧ ((0x3FFFFFFFFF#40 : BitVec 40).getLsbD 38 = false ∧ (0x3FFFFFFFFF#40 : BitVec 40).getLsbD 39 = false)
      ∧ (∀ bytes, Carries bytes req (asking 0x03#8 ready)) ∧ Carries [] req (asking 0x01#8 ready)
      ∧ (∀ kind body, InTurn kind req.tag (receiving kind body ready) ∧ Received body (receiving kind body ready))
      ∧ (([0x00#8] : List Byte).length < 2 ∧ ([] : List Byte).length ≠ 1 ∧ [0x01#8, 0x02#8, 0x03#8, 0x04#8].length ≠ 5
        ∧ [0x01#8].length = 1 ∧ [0x01#8, 0x02#8, 0x03#8, 0x04#8, 0x05#8].length = 5 ∧ (0x02#8 : Byte) < 0x03#8
        ∧ ([0x00#8] : List Byte) ≠ []) :=
  ⟨asking_inTurn _ _, asking_inTurn _ _, asking_inTurn _ _, asking_inTurn _ _, by decide, by decide, fun bytes => asking_carries _ bytes _,
    asking_carries _ _ _, fun _ _ => ⟨receiving_inTurn _ _ _, receiving_received _ _ _⟩, by decide⟩

/-- Unknown collections, parameters outside their ranges, a start and a count at the ends of their ranges. -/
theorem test_meets_ListReadsReturnRunsOfTheCollections :
    InTurn 0x05#8 req.tag (asking 0x05#8 ready) ∧ (∀ c p, (c, p) ∈ [(0, 0), (9, 0), (1, 0), (6, 5), (5, 1), (8, 1)] → entriesOf (asking 0x05#8 ready) c p = none)
      ∧ (entriesOf (asking 0x05#8 ready) 8 0 = some [] ∧ 65534 ≤ 65534 ∧ 1 ≤ 255 ∧ 255 ≤ 255)
      ∧ (entriesOf (asking 0x05#8 (serving [order 1 .received])) 8 0 = some [.item (item 10)]
        ∧ 0 < [ListEntry.item (item 10)].length) := by
  refine ⟨asking_inTurn _ _, ?_, by decide⟩
  intro c p h
  simp only [List.mem_cons, Prod.mk.injEq, List.not_mem_nil, or_false] at h
  rcases h with ⟨rfl, rfl⟩ | ⟨rfl, rfl⟩ | ⟨rfl, rfl⟩ | ⟨rfl, rfl⟩ | ⟨rfl, rfl⟩ | ⟨rfl, rfl⟩ <;> rfl

/-- A count that does not match, and a screen that does not exist. -/
theorem test_meets_RequestsAreChecked :
    InTurn 0x11#8 req.tag (asking 0x11#8 ready) ∧ request? (.cueLoad req 5 1 []) = some (0x11#8, req)
      ∧ ¬ countFits (.cueLoad req 5 1 []) ∧ countFits (.cueLoad req 5 0 []) ∧ place? (.cueLoad req 5 0 []) = some 5
      ∧ Nr.ofNat? 5 = none :=
  ⟨asking_inTurn _ _, rfl, by simp [countFits], by simp [countFits], rfl, rfl⟩

/-- Settings below their range and at its end; a show that is not HOLDING; a hold whose inbound count is at the threshold. -/
theorem test_meets_ScreenSetReplacesTheSettings :
    InTurn 0x10#8 req.tag (asking 0x10#8 ready)
      ∧ (ScreenSettings.valid { Screen.reset.settings with stallTime := 99 } = false
        ∧ ScreenSettings.valid { Screen.reset.settings with stallTime := 100, holdThreshold := 0 } = true)
      ∧ ((asking 0x10#8 ready).screens.get .one).state ≠ .holding
      ∧ (let s := asking 0x10#8 (showing .holding 7 [cue 1 8 .holdPoint])
         (s.screens.get .one).state = .holding ∧ (s.fields.get .one).inbound.length ≤ 0 ∧ nothingDue (s.screens.get .one)) :=
  ⟨asking_inTurn _ _, by decide, by decide, by unfold nothingDue noCueDue; decide⟩

/-- Cues that fit, that carry a number in use, and that find the list full; inserts at the position and after it; a cue to be deleted
that is unfired, and one that is fired; an empty list after a delete. -/
theorem test_meets_CueListsAreEdited :
    InTurn 0x11#8 req.tag (asking 0x11#8 ready) ∧ InTurn 0x12#8 req.tag (asking 0x12#8 ready)
      ∧ InTurn 0x13#8 req.tag (asking 0x13#8 ready) ∧ InTurn 0x14#8 req.tag (asking 0x14#8 ready)
      ∧ (let x := (showing .loaded 0 [cue 1 5 (.mark 1)]).screens.get .one
         (x.cues.map fun c : Cue => c.number).Nodup ∧ ¬ ((x.cues.map fun c : Cue => c.number) ++ [1]).Nodup
         ∧ ((x.cues.map fun c : Cue => c.number) ++ [2]).Nodup
         ∧ (∀ d ∈ [(⟨2, 16777215, .mark 255⟩ : CueSpec)], CueSpec.valid d = true)
         ∧ x.cues.Pairwise (fun c d => c.position ≤ d.position) ∧ x.cues.length + 1 ≤ 64
         ∧ (∀ d ∈ x.cues, d.number ≠ 2) ∧ (∀ d ∈ x.cues, d.fired = false))
      ∧ (let full := (showing .loaded 0 ((List.range 64).map fun k => cue (k + 1) k (.mark 1))).screens.get .one
         64 < full.cues.length + 1 ∧ 64 ≤ full.cues.length)
      ∧ (let x := (showing .running 7 [firedCue 1 5]).screens.get .one
         x.state = .running ∧ 7 ≤ x.position ∧ x.position < 8 ∧ (∀ d ∈ x.cues, d.fired = true))
      ∧ noneDeferred .one ready :=
  ⟨asking_inTurn _ _, asking_inTurn _ _, asking_inTurn _ _, asking_inTurn _ _, by decide, by decide +kernel, by decide,
    by unfold noneDeferred; decide⟩

/-- A show that can be armed and one that cannot; an ARMED show with no cue due; shows that run and hold, and that do not; a heard
source. -/
theorem test_meets_ShowsAreArmedRunAndStopped :
    InTurn 0x15#8 req.tag (asking 0x15#8 ready) ∧ InTurn 0x16#8 req.tag (asking 0x16#8 ready)
      ∧ InTurn 0x17#8 req.tag (asking 0x17#8 ready)
      ∧ ((showing .loaded 0 [cue 1 1 .holdPoint]).screens.get .one).state = .loaded
      ∧ (let x := (showing .stopped 9 [cue 1 1 .holdPoint]).screens.get .one
         x.state = .stopped ∧ x.cues ≠ [])
      ∧ (ready.screens.get .one).state ≠ .loaded
      ∧ (let x := (showing .armed 0 [cue 1 1 .holdPoint]).screens.get .one
         x.state = .armed ∧ nothingDue x)
      ∧ ((showing .holding 4 []).screens.get .one).state = .holding ∧ ((showing .running 4 []).screens.get .one).state = .running
      ∧ noneDeferred .one ready ∧ Hears .show 4 ready :=
  ⟨asking_inTurn _ _, asking_inTurn _ _, asking_inTurn _ _, by decide, by decide, by decide, by unfold nothingDue noCueDue; decide,
    by decide, by decide, by unfold noneDeferred; decide, by unfold Hears; decide⟩

/-- A hold with its timer running and no cue due. -/
theorem test_meets_HoldsEnd :
    InTurn 0x18#8 req.tag (asking 0x18#8 ready)
      ∧ (let s := asking 0x18#8 (screened fun x => { x with state := .holding, position := 5, maxHold := some 300000 })
         (s.screens.get .one).state = .holding ∧ (s.screens.get .one).maxHold = some 300000 ∧ nothingDue (s.screens.get .one))
      ∧ noneDeferred .one ready ∧ Hears .show 2 ready :=
  ⟨asking_inTurn _ _, by unfold nothingDue noCueDue; decide, by unfold noneDeferred; decide, by unfold Hears; decide⟩

/-- A next intermission, after one that has fired; and none. -/
theorem test_meets_ShowStatusTellsTheScreen :
    InTurn 0x19#8 req.tag (asking 0x19#8 ready)
      ∧ (let past : Cue := ⟨1, 5, .intermissionBegin 0, true⟩
         let x := (showing .running 6 [past, cue 2 9 (.intermissionBegin 3), cue 3 9 .finish]).screens.get .one
         x.cues = [past] ++ cue 2 9 (.intermissionBegin 3) :: [cue 3 9 .finish] ∧ (cue 2 9 (.intermissionBegin 3)).fired = false
         ∧ ∀ d ∈ [past], d.fired = true)
      ∧ (∀ d ∈ (ready.screens.get .one).cues, d.fired = true) :=
  ⟨asking_inTurn _ _, by decide, by decide⟩

/-- The filter in each of its states; a RUNNING show before its last position and one at it; a stall timer that runs. -/
theorem test_meets_FramesAreCountedAndStallsRaised :
    (ready.screens.get .one).filter = ⟨.waitLow, 0⟩
      ∧ ((screened fun x => { x with filter := ⟨.waitLow, 1⟩ }).screens.get .one).filter = ⟨.waitLow, 1⟩
      ∧ ((screened fun x => { x with filter := ⟨.waitHigh, 0⟩ }).screens.get .one).filter = ⟨.waitHigh, 0⟩
      ∧ (let s := screened fun x => { x with filter := ⟨.waitHigh, 1⟩, state := .running, position := 16777214, stall := some 250 }
         let x := s.screens.get .one
         x.filter = ⟨.waitHigh, 1⟩ ∧ x.state = .running ∧ noCueDue (x.position + 1) x.cues ∧ x.position + 1 = 16777215
         ∧ x.stall = some 250 ∧ State.level s (.projectionStalled .one) = false)
      ∧ noCueDue 8 ((showing .running 7 [cue 1 9 .finish]).screens.get .one).cues ∧ noneDeferred .one ready :=
  ⟨by decide, by decide, by decide, by unfold noCueDue; decide +kernel, by unfold noCueDue; decide, by unfold noneDeferred; decide⟩

/-- One due cue among fired ones and later ones: a hold point that holds, and one that is passed; a mark; an OUTPUT cue, at the
last position before the end. -/
theorem test_meets_DueCuesFire :
    let cues (a : CueAction) : List Cue := [firedCue 1 5] ++ cue 2 8 a :: [cue 3 9 .finish]
    let s (a : CueAction) (on : Bool) (cars : List Inbound) : State :=
      (screened fun x => { x with
        filter := ⟨.waitHigh, 1⟩, state := .running, position := 7, cues := cues a
        settings := { x.settings with holdEnable := on, holdThreshold := 0 } }).setField .one
        { ready.fields.get .one with inbound := cars }
    (let x := (s .holdPoint true [⟨1, 0, 900⟩]).screens.get .one
     x.state = .running ∧ x.filter = ⟨.waitHigh, 1⟩ ∧ x.position + 1 < 16777215 ∧ x.cues = cues .holdPoint
     ∧ (x.cues.map (·.number)).Nodup ∧ (∀ d ∈ [firedCue 1 5], d.fired = true)
     ∧ (∀ d ∈ [cue 3 9 .finish], x.position + 1 < d.position) ∧ (cue 2 8 .holdPoint).fired = false
     ∧ (cue 2 8 .holdPoint).position ≤ x.position + 1
     ∧ (x.settings.holdEnable = true ∧ x.settings.holdThreshold < ((s .holdPoint true [⟨1, 0, 900⟩]).fields.get .one).inbound.length))
    ∧ ¬ (((s .holdPoint true []).screens.get .one).settings.holdThreshold
      < ((s .holdPoint true []).fields.get .one).inbound.length)
    ∧ State.level (s (.mark 1) true []) (.projectionStalled .one) = false
    ∧ (cue 2 8 (.output (.cueDriven .lamp) (.pulse 0 1))).action = .output (.cueDriven .lamp) (.pulse 0 1)
    ∧ (let y := (showing .running 16777213 [cue 1 16777214 (.output (.cueDriven .mask) .assert)]).screens.get .one
       y.position + 1 < 16777215 ∧ y.cues = [] ++ cue 1 16777214 (.output (.cueDriven .mask) .assert) :: []
       ∧ (cue 1 16777214 .finish).position ≤ y.position + 1) := by decide +kernel

/-- Lines unforced and forced; line timers that run in each operation. -/
theorem test_meets_BoothLinesFollowRequestsAndTimers :
    InTurn 0x20#8 req.tag (asking 0x20#8 ready) ∧ InTurn 0x21#8 req.tag (asking 0x21#8 ready)
      ∧ InTurn 0x22#8 req.tag (asking 0x22#8 ready)
      ∧ ((ready.outputs.get .one).lines.get .lamp).force = none
      ∧ (((ready.setBoothLine .one .lamp { LineRec.reset with force := some .asserted }).outputs.get .one).lines.get .lamp).force
        ≠ none
      ∧ (let l := ((ready.setBoothLine .one .lamp { LineRec.reset with op := .pulseWait, timer := some 1, width := some 5 }).outputs.get
          .one).lines.get .lamp
         l.timer = some 1 ∧ l.op = .pulseWait ∧ l.width = some 5)
      ∧ (let l := ((ready.setBoothLine .one .lamp { LineRec.reset with op := .pulseOn, timer := some 1 }).outputs.get .one).lines.get
          .lamp
         l.timer = some 1 ∧ l.op = .pulseOn)
      ∧ (let l := ((ready.setBoothLine .one .lamp { LineRec.reset with op := .blink, timer := some 1, halfPeriod := some 50 }).outputs.get
          .one).lines.get .lamp
         l.timer = some 1 ∧ l.op = .blink ∧ l.halfPeriod = some 50) :=
  ⟨asking_inTurn _ _, asking_inTurn _ _, asking_inTurn _ _, by decide, by decide, by decide, by decide, by decide⟩

/-- Fields on the input and off it; silence timers with no sample instant left, with one left, and idle; a record in LIVE. -/
theorem test_meets_InputsComeAndGo :
    (ready.mixers.get .one).appliedRoute = .one ∧ (ready.mixers.get .two).appliedRoute ≠ .one
      ∧ (ready.delays.get .one).slots.Pairwise (fun a b => a.1 < b.1)
      ∧ (let s : State := { ready with intake := { ready.intake with progSilence := .all (some 0), annSilence := some 0 } }
         s.intake.progSilence.get .one = some 0 ∧ s.intake.annSilence = some 0)
      ∧ (let s : State := { ready with intake := { ready.intake with progSilence := .all (some 1) } }
         s.intake.progSilence.get .one ≠ some 0 ∧ s.intake.annSilence ≠ some 0)
      ∧ (∃ a ∈ (announcing (ann 1 .live 0 1 .live)).announce.active, a.phase = .live) := by decide

/-- Silence timers that have run out; blocks whole and short; a note at its end before another and alone, the other voices idle; no
note at its end; the slots of a delay line in rising order. -/
theorem test_meets_SampleInstantMixesEachField :
    (let s : State := { ready with intake := { ready.intake with progSilence := .all (some 0), annSilence := some 0 } }
     s.intake.progSilence.get (s.mixers.get .one).appliedRoute = some 0 ∧ s.intake.annSilence = some 0
     ∧ (s.mixers.get .one).block.length < 96)
    ∧ 96 ≤ (blockWhole.mixers.get .one).block.length
    ∧ (∀ n ∈ Nr.all, (ready.mixers.get n).block.length < 96)
    ∧ (let v : Four Voice := ⟨.sounding [⟨1, 20⟩, ⟨2, 20⟩] 4096 960, .idle, .idle, .idle⟩
       let w : Four Voice := ⟨.sounding [⟨1, 20⟩] 4096 960, .idle, .idle, .idle⟩
       v.get .one = .sounding (⟨1, 20⟩ :: ⟨2, 20⟩ :: []) 4096 960 ∧ w.get .one = .sounding [⟨1, 20⟩] 4096 960
       ∧ (⟨1, 20⟩ : Note).duration * 48 ≤ 960 ∧ 0 < (⟨2, 20⟩ : Note).duration ∧ ∀ i ∈ Nr.all, i ≠ .one → v.get i = .idle)
    ∧ (∀ n ∈ Nr.all, ready.announce.voices.get n = .idle)
    ∧ ((ready.setDelay .one ⟨5, [(3, ⟨1, 1⟩), (4, ⟨2, 2⟩)]⟩).delays.get .one).slots.Pairwise (fun a b => a.1 < b.1) := by
  decide +kernel

/-- Audio settings outside their range and at its end. -/
theorem test_meets_AudioSettingsActOnTheFade :
    InTurn 0x28#8 req.tag (asking 0x28#8 ready) ∧ InTurn 0x29#8 req.tag (asking 0x29#8 ready)
      ∧ AudioSettings.valid { AudioSettings.reset .one with delay := 401 } = false
      ∧ AudioSettings.valid { AudioSettings.reset .one with delay := 400 } = true :=
  ⟨asking_inTurn _ _, asking_inTurn _ _, by decide, by decide⟩

/-- A block that is whole, and one that is not; no pending change; one that a boundary with field audio OFF applies, with and without
a route mark; a fade-out at its last step. -/
theorem test_meets_BlockBoundaryStepsTheMixer :
    let m (c : PendingChange) : Mixer := { ready.mixers.get .one with change := some c }
    (96 ≤ (blockWhole.mixers.get .one).block.length ∧ (ready.mixers.get .one).block.length < 96)
      ∧ (ready.mixers.get .one).change = none
      ∧ (m ⟨48, false⟩).change = some ⟨48, false⟩ ∧ (m ⟨48, true⟩).settings.fieldAudio = false
      ∧ Nr.ofNat? (m ⟨48, true⟩).settings.route = some .one
      ∧ ({ m ⟨48, true⟩ with fade := .fadingOut, fadeGain := 1024 } : Mixer).fadeGain ≤ 1024 := by decide

/-- A block that is whole; a line in RUNNING with its cycle whole, in its AUDIO frame and in its exchange, and with a survey waiting;
one in STARTING before its first boundary, at the count of 8 and of 9; one in SURVEY with its survey in progress and ended; one in
FAULT without a survey. -/
theorem test_meets_BlockBoundaryStepsTheLine :
    let line (state : LineState) (f : LineCtl → LineCtl) : LineCtl := (whole (lined fun l => f { l with state := state })).lines.get .one
    let survey (state : SurveyState) : SurveyState :=
      ((blockWhole.setSurvey .one { SurveyUnit.reset with state := state }).surveys.get .one).state
    (blockWhole.mixers.get .one).block.length = 96 ∧ (ready.lines.get .one).state = .off
      ∧ (line .running fun l => { l with wire := .audio }).wire = .audio
      ∧ (line .running fun l => { l with wire := .exchange }).wire = .exchange
      ∧ (line .running fun l => { l with wire := .flags }).wire = .flags ∧ (line .running id).state = .running
      ∧ ((line .starting id).state = .starting ∧ (line .starting id).started = false)
      ∧ (line .starting fun l => { l with started := true, startCount := 8 }).startCount < 9
      ∧ (line .starting fun l => { l with started := true, startCount := 9 }).startCount = 9
      ∧ ((line .survey id).state = .survey ∧ survey .measuring ≠ .idle ∧ survey .idle = .idle)
      ∧ ((line .fault id).state = .fault ∧ survey .waiting = .waiting ∧ survey .idle ≠ .waiting) := by decide +kernel

/-- An announcement that is invalid, that finds the queue full, that is granted, that waits, and that preempts. -/
theorem test_meets_AnnouncementsAreQueuedAndGranted :
    InTurn 0x30#8 req.tag (asking 0x30#8 ready)
      ∧ announceValid .chime 0 [1] 2 30 = false ∧ announceValid .chime 1 [1] 1 120 = true
      ∧ 16 ≤ (List.replicate 16 (ann 1 .chime 1 2 .queued)).length
      ∧ (ready.announce.queue = [] ∧ 1 ≤ ready.announce.nextId ∧ ready.announce.nextId ≤ 255 ∧ ready.announce.active.length < 255)
      ∧ (IsFirstFree 255 (ready.announce.active.map (·.id)) ready.announce.nextId 1 ∧ IsFirstFree 255 [255] 255 1)
      ∧ (let s := announcing (ann 9 .chime 1 2 .chime)
         s.announce.queue = [] ∧ (∃ b ∈ s.announce.active, b.targets.get .one = true ∧ (2 ≠ 1 ∨ b.priority = 1))
         ∧ (∀ b ∈ s.announce.active, b.priority ≠ 1) ∧ (s.announce.active.map (·.id)).Nodup)
      ∧ (let waits (targets : Four Bool) : Ann := { ann 8 .chime 1 3 .queued with targets := targets }
         let both : Ann := { ann 9 .chime 1 2 .chime with targets := ⟨true, true, false, false⟩ }
         (waits ⟨true, false, false, false⟩).targets.get .one = both.targets.get .one
         ∧ ((waits ⟨false, true, false, false⟩).targets.get .two = both.targets.get .two ∧ (waits ⟨false, true, false, false⟩).priority ≠ 1
           ∧ ∀ n ∈ Nr.all, (waits ⟨false, true, false, false⟩).targets.get n = true → (onlyField .one).get n = false)) :=
  ⟨asking_inTurn _ _, by decide, by decide, by decide, by decide,
    ⟨⟨0, by decide, by decide, fun j h => absurd h (Nat.not_lt_zero j)⟩,
      ⟨1, by decide, by decide, fun j h => by
        have : j = 0 := by omega
        subst this
        decide⟩⟩, by decide, by decide⟩

/-- An active record with its timer; a record in LIVE with the source-loss timer; a voice in its last note; a queued record; chime
patterns outside their range and at its end. -/
theorem test_meets_AnnouncementsEndOrAreCancelled :
    InTurn 0x31#8 req.tag (asking 0x31#8 ready) ∧ InTurn 0x32#8 req.tag (asking 0x32#8 ready)
      ∧ (let a := ann 255 .live 0 1 .live
         let s := (announcing a).setAnnounce { (announcing a).announce with sourceLoss := some 2000 }
         a ∈ s.announce.active ∧ (s.announce.active.map (·.id)).Nodup ∧ s.announce.queue = [] ∧ 1 ≤ a.id ∧ a.id ≤ 255
         ∧ a.timer = some 30000 ∧ s.announce.sourceLoss = some 2000 ∧ a.phase = .live
         ∧ ∀ b ∈ s.announce.active, b.phase = .live → b = a)
      ∧ (let a := ann 1 .chime 1 1 .chime
         let s := (announcing a).setAnnounce { (announcing a).announce with
           voices := (announcing a).announce.voices.set .one (.sounding [⟨1, 20⟩] 4096 960) }
         a.phase = .chime ∧ a.kind = .chime ∧ a.targets.get .one = true
         ∧ (∀ b ∈ s.announce.active, b.targets.get .one = true → b = a)
         ∧ s.announce.voices.get .one = .sounding [⟨1, 20⟩] 4096 960 ∧ (⟨1, 20⟩ : Note).duration * 48 ≤ 960
         ∧ ∀ i ∈ Nr.all, i ≠ .one → a.targets.get i = true → s.announce.voices.get i = .idle)
      ∧ (256 ∉ ready.announce.queue.map (·.id) ∧ 255 ∉ ready.announce.active.map (·.id))
      ∧ (let q := [ann 3 .chime 1 2 .queued]
         ann 3 .chime 1 2 .queued ∈ q ∧ (q.map (·.id)).Nodup)
      ∧ chimeValid 1 1 [⟨15, 2001⟩] 4096 = false ∧ chimeValid 8 1 [⟨15, 2000⟩] 4096 = true :=
  ⟨asking_inTurn _ _, asking_inTurn _ _, by decide, by decide, by decide, by decide, by decide, by decide⟩

/-- A record that awaits its last field, for a chime and without one; a LIVE record whose last voice ends; a started voice; a note
before the last at its end and short of it; a last note short of its end; a block that is whole. -/
theorem test_meets_AnnouncementsSound :
    (let a := ann 1 .live 0 1 .ducking
     let m : Mixer := { ready.mixers.get .one with duck := .ducking, duckGain := 1024 }
     a.phase = .ducking ∧ (∀ i ∈ Nr.all, a.awaited.get i = true → i = .one) ∧ m.duck = .ducking
     ∧ m.duckGain = m.settings.duckDepth ∧ a.kind = .live ∧ a.pattern = 0 ∧ (ann 1 .chime 1 1 .ducking).kind = .chime
     ∧ defaultPatterns[(ann 1 .chime 1 1 .ducking).pattern - 1]? = some ⟨[⟨13, 120⟩, ⟨0, 40⟩, ⟨13, 120⟩], 2048⟩)
    ∧ (let a := ann 1 .live 1 1 .chime
       (∀ b ∈ (announcing a).announce.active, b.targets.get .one = true → b = a)
       ∧ ((announcing a).announce.active.map (·.id)).Nodup ∧ a.phase = .chime ∧ a.kind = .live)
    ∧ (let v : Four Voice := ⟨.started [⟨1, 20⟩] 4096, .sounding [⟨1, 20⟩, ⟨2, 20⟩] 4096 960, .sounding [⟨1, 20⟩] 1 960,
         .sounding [⟨1, 20⟩] 1 959⟩
       v.get .one = .started [⟨1, 20⟩] 4096 ∧ v.get .two = .sounding (⟨1, 20⟩ :: ⟨2, 20⟩ :: []) 4096 960
       ∧ v.get .three = .sounding [⟨1, 20⟩] 1 960 ∧ v.get .four = .sounding [⟨1, 20⟩] 1 959
       ∧ (⟨1, 20⟩ : Note).duration * 48 ≤ 960 ∧ 959 < (⟨1, 20⟩ : Note).duration * 48)
    ∧ (blockWhole.mixers.get .one).duck ≠ .ducking ∧ 96 ≤ (blockWhole.mixers.get .one).block.length := by decide +kernel

/-- Line settings outside their range and at its end; lines in OFF with LFAULT clear and active, in FAULT, and RUNNING with and
without a survey. -/
theorem test_meets_LineRequestsAreTaken :
    InTurn 0x38#8 req.tag (asking 0x38#8 ready) ∧ InTurn 0x39#8 req.tag (asking 0x39#8 ready)
      ∧ InTurn 0x3A#8 req.tag (asking 0x3A#8 ready)
      ∧ LineSettings.valid ⟨49, 1, false⟩ = false ∧ LineSettings.valid ⟨50, 127, true⟩ = true
      ∧ ((ready.lines.get .one).state = .off ∧ (ready.lines.get .one).lfault.level = false)
      ∧ ((lined fun l => { l with lfault := ⟨true, 0⟩ }).lines.get .one).lfault.level = true
      ∧ (let l := (lined fun l => { l with state := .fault }).lines.get .one
         l.state = .fault ∧ l.lfault.level = false ∧ (ready.surveys.get .one).state ≠ .waiting)
      ∧ (let l := (lined fun l => { l with state := .running, wire := .audio }).lines.get .one
         l.state ≠ .off ∧ l.wire = .audio)
      ∧ ((ready.setSurvey .one { SurveyUnit.reset with state := .waiting }).surveys.get .one).state ≠ .idle
      ∧ Hears .line 3 ready :=
  ⟨asking_inTurn _ _, asking_inTurn _ _, asking_inTurn _ _, by decide, by decide, by decide, by decide, by decide, by decide, by decide,
    by unfold Hears; decide⟩

/-- A line at the boundary that brings its count to 10, with LFAULT clear and active, and one before it; one whose survey has ended,
at a boundary and within a block; the filter before its second differing sample. -/
theorem test_meets_LinesRunAndFault :
    (let s := whole (lined fun l => { l with state := .starting, started := true, startCount := 9 })
     (s.lines.get .one).state = .starting ∧ (s.lines.get .one).started = true ∧ 9 ≤ (s.lines.get .one).startCount
     ∧ (s.lines.get .one).lfault.level = false ∧ 96 ≤ (s.mixers.get .one).block.length)
    ∧ (let s := whole (lined fun l => { l with state := .starting, started := true, startCount := 9, lfault := ⟨true, 0⟩ })
       (s.lines.get .one).startCount = 9 ∧ (s.lines.get .one).lfault.level = true)
    ∧ ((lined fun l => { l with state := .starting, started := true, startCount := 8 }).lines.get .one).startCount < 9
    ∧ (let s := whole (lined fun l => { l with state := .survey })
       (s.lines.get .one).state = .survey ∧ (s.surveys.get .one).state = .idle ∧ 96 ≤ (s.mixers.get .one).block.length)
    ∧ (ready.mixers.get .one).block.length < 96
    ∧ (let l := (lined fun l => { l with state := .running, lfault := ⟨false, 1⟩ }).lines.get .one
       true ≠ l.lfault.level ∧ l.lfault.run = 1 ∧ l.state = .running)
    ∧ (let l := (lined fun l => { l with lfault := ⟨true, 1⟩ }).lines.get .one
       false ≠ l.lfault.level ∧ l.lfault.run = 1)
    ∧ (true ≠ (ready.lines.get .one).lfault.level ∧ (ready.lines.get .one).lfault.run = 0) := by decide +kernel

/-- Line 1 at the end of an AUDIO frame: a broadcast that is sent, a message for a PRESENT post, one due for resend, none that may be
sent; polls of the list, of a discovery cycle, and of no node at all. -/
theorem test_meets_CycleSendsAndPolls :
    let s := (lined fun l => { l with state := .running, wire := .audio }).setNode .one 5 presentPost
    let e : DownEntry := ⟨3, 255, .chime .both 1, .host, 0, .waiting⟩
    ((s.lines.get .one).state = .running ∧ (s.lines.get .one).wire = .audio)
      ∧ (s.node .one 5).state = .present ∧ (s.node .one 6).state = .absent
      ∧ (s.posts.get .one).pollPosition = none ∧ (s.posts.get .one).cycle ≠ 8
      ∧ (let q := queueing [e] s
         (q.posts.get .one).queue = [] ++ e :: [] ∧ ((q.posts.get .one).queue.map (·.number)).Nodup ∧ e.mark = .waiting
         ∧ e.address = 255)
      ∧ (let q := queueing [message .waiting] s
         (message .waiting).address = 5 ∧ (q.node .one 5).state = .present
         ∧ ∀ x ∈ (q.posts.get .one).queue, x.address = 5 → x.mark = .waiting)
      ∧ (message (.outstanding 1 3)).mark = .outstanding 1 3
      ∧ (let v : Node := { Node.reset with state := .disabled }
         ∀ a : Fin 97, ((Vector.replicate 97 v)[a.val]).state ≠ .absent) := by
  refine ⟨by decide +kernel, by decide +kernel, by decide +kernel, by decide +kernel, by decide +kernel, by decide +kernel,
    by decide +kernel, by decide, ?_⟩
  intro v a
  simp [v]

/-- A reply of the shortest length, after the longest idle of ones. -/
theorem test_meets_FramedReplyIsReadWhole :
    2 ≤ [5#8, 3#8].length ∧ [5#8, 3#8].length ≤ 66 ∧ ([5#8, 3#8].headD (0#8)).toNat = 5 ∧ (List.replicate 66 (0#8)).length ≤ 66
      ∧ (∀ b ∈ List.replicate 190 true, b = true) ∧ (List.replicate 190 true).length ≤ 190 := by decide +kernel

/-- Polls of a record in each state, with a reply window that is silent and one with a GOOD reply. -/
theorem test_meets_ReplyOutcomesReachTheRecords :
    let s := polling ⟨5, 2, true⟩ presentPost
    ((s.lines.get .one).state = .running ∧ (s.lines.get .one).wire = .exchange ∧ (s.lines.get .one).poll = some ⟨5, 2, true⟩)
      ∧ (s.node .one 5).state = .present ∧ (s.node .one 5).errors < 2
      ∧ ((polling ⟨5, 2, true⟩ { presentPost with errors := 2 }).node .one 5).errors = 2
      ∧ ((polling ⟨5, 2, true⟩ Node.reset).node .one 5).state = .absent
      ∧ ((polling ⟨5, 2, false⟩ { Node.reset with state := .silent }).node .one 5).state = .silent
      ∧ ((polling ⟨5, 2, false⟩ { Node.reset with state := .disabled }).node .one 5).state = .disabled
      ∧ (windowOutcome 5 []).1 ≠ .good ∧ windowOutcome 5 (replyBits [5#8, 3#8]) = (.good, withCrc [byteOf 5, 3#8])
      ∧ (3#8 : Byte).getLsbD 4 = false ∧ (∀ e ∈ (s.posts.get .one).queue, e.address = 5 → e.mark = .waiting) := by decide +kernel

/-- An outstanding message at its first and its last poll and send; a silence timer that runs; an old message for a post that is not
PRESENT. -/
theorem test_meets_MessagesAndPostsComeToTheirEnds :
    let s (m : DownMark) := queueing [message m] (polling ⟨5, 2, false⟩ presentPost)
    (((s (.outstanding 3 2)).node .one 5).state = .present
      ∧ message (.outstanding 3 2) ∈ ((s (.outstanding 3 2)).posts.get .one).queue
      ∧ (message (.outstanding 3 2)).mark = .outstanding 3 2
      ∧ (∀ q ∈ ((s (.outstanding 3 2)).posts.get .one).queue, q.address = 5 → q.mark ≠ .waiting → q = message (.outstanding 3 2))
      ∧ (((s (.outstanding 3 2)).posts.get .one).queue.map (·.number)).Nodup)
      ∧ (2 + 1 = 3 ∧ 0 + 1 ≠ 3) ∧ (message (.outstanding 1 3)).mark = .outstanding 1 3
      ∧ (windowOutcome 5 []).1 ≠ .good ∧ (3#8 : Byte).getLsbD 2 = presentPost.downToggle
      ∧ (let t := ready.setNode .one 5 { Node.reset with state := .silent, silence := some 30000 }
         (t.node .one 5).state = .silent ∧ (t.node .one 5).silence = some 30000)
      ∧ (let t := queueing [message .waiting] ready
         message .waiting ∈ (t.posts.get .one).queue ∧ (message .waiting).address ≠ 255
         ∧ (t.node .one 5).state ≠ .present ∧ ((t.posts.get .one).queue.map (·.number)).Nodup)
      ∧ Hears .line 2 ready := by
  refine ⟨by decide +kernel, by decide, by decide, by decide +kernel, by decide, by decide +kernel, by decide +kernel, ?_⟩
  unfold Hears
  decide

/-- Addresses, positions and channels at the ends of their ranges; a POST_SET that needs a message and one that does not; a full
queue; an address that is DISABLED; a line that is OFF and one that is not. -/
theorem test_meets_PostRequestsAreTaken :
    InTurn 0x3C#8 req.tag (asking 0x3C#8 ready) ∧ InTurn 0x3D#8 req.tag (asking 0x3D#8 ready)
      ∧ InTurn 0x3E#8 req.tag (asking 0x3E#8 ready) ∧ InTurn 0x3F#8 req.tag (asking 0x3F#8 ready)
      ∧ (positionValid 30001 = false ∧ positionValid 30000 = true ∧ positionValid 0xFFFF = true)
      ∧ (let s := lined fun l => { l with state := .running }
         (s.node .one 5).left.enabled ≠ false ∧ (s.lines.get .one).state ≠ .off ∧ (s.posts.get .one).queue.length < 40
         ∧ (s.node .one 0).state ≠ .disabled)
      ∧ 40 ≤ (List.replicate 40 (message .waiting)).length
      ∧ BoothMessage.valid (.display .left 255 0 []) = true ∧ countFits (.postSend req 1 96 (.display .left 255 0 []))
      ∧ BoothMessage.valid .other = false ∧ (ready.lines.get .one).state = .off :=
  ⟨asking_inTurn _ _, asking_inTurn _ _, asking_inTurn _ _, asking_inTurn _ _, by decide, by decide +kernel, by decide, by decide, rfl,
    by decide, by decide⟩

/-- Surveys that are IDLE, WAITING and MEASURING with their timer; lines that take one and that do not; an auto-survey timer. -/
theorem test_meets_SurveysRun :
    InTurn 0x3B#8 req.tag (asking 0x3B#8 ready)
      ∧ ((ready.surveys.get .one).state = .idle ∧ (ready.lines.get .one).state = .off)
      ∧ (let s := lined fun l => { l with state := .running }
         (s.lines.get .one).state = .running ∧ ¬ ((s.screens.get .one).state = .running))
      ∧ ((lined fun l => { l with state := .starting }).lines.get .one).state = .starting
      ∧ (let s (state : LineState) : State := (whole (lined fun l => { l with state := state, wire := .flags })).setSurvey .one
           { SurveyUnit.reset with state := .waiting }
         ((s .running).surveys.get .one).state = .waiting ∧ ((s .running).lines.get .one).state = .running
         ∧ ((s .running).lines.get .one).wire ≠ .audio ∧ ((s .running).lines.get .one).wire ≠ .exchange
         ∧ ((s .fault).lines.get .one).state = .fault ∧ 96 ≤ ((s .fault).mixers.get .one).block.length)
      ∧ (let u := (ready.setSurvey .one { SurveyUnit.reset with state := .measuring, timer := some 40, launch := some 20 }).surveys.get .one
         u.state = .measuring ∧ u.timer = some 40 ∧ u.launch = some 20)
      ∧ (ready.surveys.get .one).launch = none
      ∧ (let s := lined fun l => { l with state := .fault, autoTimer := some 1000 }
         (s.lines.get .one).autoTimer = some 1000 ∧ (s.lines.get .one).state = .fault)
      ∧ (List.replicate 2048 (0 : Int)).length = 2048 ∧ (List.replicate 2048 (0 : Int))[2047]? = some 0 :=
  ⟨asking_inTurn _ _, by decide, by decide, by decide, by decide +kernel, by decide, by decide, by decide +kernel, by decide +kernel⟩

/-- A run at the threshold at the end of the tap memory. -/
theorem test_meets_ReflectionsAreTheRuns :
    1 ≤ 16 ∧ ([(2047, 16)] : List (Nat × Int)).Pairwise (fun a b => a.1 < b.1) ∧ IsRun [(2047, 16)] 16 2047 2048 := by
  refine ⟨by decide, by decide, by decide, ?_, ?_, by decide⟩
  · intro k h1 h2
    have : k = 2047 := by omega
    subst this
    decide
  · intro k h
    have : k = 2046 := by omega
    subst this
    decide

/-- A tap and a velocity factor at the ends of their ranges; a copied position. -/
theorem test_meets_ReflectionsAreLocated :
    2047 ≤ 2047 ∧ 99 ≤ 99
      ∧ ((5 : Nat), (30000 : Nat)) ∈ ((ready.setNode .one 5 { Node.reset with position := some 30000 }).posts.get .one).positions := by
  decide +kernel

/-- A lane before its first sample and after it; filters that stay and that change; an unarmed and an armed lane; the passes of an
entry, of a balk, and of an exit. -/
theorem test_meets_LanesDecodePasses :
    (ready.lane .one).sampled = false ∧ ((laned id).lane .one).sampled = true
      ∧ (let l := (laned fun l => { l with loopA := ⟨false, 2, .idle⟩ }).lane .one
         l.loopA.run + 1 < l.settings.filterCount ∧ l.armed = true)
      ∧ (let l := (laned fun l => { l with decoder := .inB, loopB := ⟨true, 3, .running 9⟩, held := 3 }).lane .one
         l.settings.filterCount ≤ (l.loop .b).run + 1 ∧ l.decoder = .inB ∧ !(l.loop .b).level = false ∧ l.held + 1 = 4)
      ∧ (let l := (laned fun l => { l with decoder := .outB, loopB := ⟨true, 3, .expired⟩ }).lane .one
         l.settings.filterCount ≤ (l.loop .b).run + 1 ∧ l.decoder = .outB ∧ !(l.loop .b).level = false)
      ∧ (laned id).gate.site ≤ 4294967295
      ∧ ((laned fun l => { l with armed := false }).lane .one).armed = false := by decide

/-- An entry with an admission, one without, and one on an EXIT lane. -/
theorem test_meets_PassesAreReportedAndMatched :
    let p : RawPass := ⟨.entry, false, false⟩
    let a : Admission := ⟨1, .two, .car, 2, 0, 120000⟩
    (p.balk = false ∧ p.direction = .entry)
      ∧ ((laned fun l => { l with queue := [a] }).lane .one).queue = a :: []
      ∧ ((laned id).lane .one).settings.direction ≠ .exit ∧ ((laned id).lane .one).queue = []
      ∧ (ready.lane .four).settings.direction = .exit
      ∧ (let l := (laned fun l => { l with decoder := .inB, loopB := ⟨true, 3, .running 9⟩ }).lane .one
         l.sampled = true ∧ l.armed = true ∧ l.settings.filterCount ≤ (l.loop .b).run + 1)
      ∧ (let car : Inbound := ⟨1, 0, 900⟩
         64 ≤ (List.replicate 64 car).length ∧ List.replicate 64 car = car :: List.replicate 63 car
         ∧ (List.replicate 63 car).length < 64)
      ∧ (let s := arriving 64
         State.level (countPass .one s p) (.fieldFull .two) = State.level s (.fieldFull .two) ∧ Hears .gate 2 s ∧ Hears .field 2 s
         ∧ (s.screens.get .two).state ≠ .holding)
      ∧ (let x : Screen := { Screen.reset with state := .holding, settings := { Screen.reset.settings with holdThreshold := 64 } }
         x.state = .holding ∧ 63 + 1 ≤ x.settings.holdThreshold ∧ (x.cues.map (·.number)).Nodup) := by
  unfold Hears
  decide +kernel

/-- Occupants at the ends of their range; a lane's queue that is full and that is not; a full field; ids free and in use. -/
theorem test_meets_GateRequestsAreTaken :
    let a : Admission := ⟨65535, .two, .car, 15, 0, 120000⟩
    InTurn 0x41#8 req.tag (asking 0x41#8 ready) ∧ InTurn 0x42#8 req.tag (asking 0x42#8 ready)
      ∧ InTurn 0x40#8 req.tag (asking 0x40#8 ready) ∧ InTurn 0x43#8 req.tag (asking 0x43#8 ready)
      ∧ InTurn 0x44#8 req.tag (asking 0x44#8 ready)
      ∧ (1 ≤ 15 ∧ 15 ≤ 15 ∧ (ready.lane .one).settings.direction ≠ .exit ∧ (ready.lane .one).queue.length < 8)
      ∧ 8 ≤ (List.replicate 8 a).length
      ∧ (State.level ready (.fieldFull .one) = true
        ∧ State.level (linked fun l => { l with live := 0 }) (.fieldFull .one) = false)
      ∧ (1 ≤ ready.gate.nextId ∧ ready.gate.nextId ≤ 65535 ∧ ready.gate.ids.length < 65535)
      ∧ IsFirstFree 65535 ready.gate.ids ready.gate.nextId 1
      ∧ (let l := (laned fun l => { l with queue := [a] }).lane .one
         a ∈ l.queue ∧ (l.queue.map (·.id)).Nodup ∧ 65535 ∈ l.queue.map (·.id) ∧ 1 ∉ l.queue.map (·.id) ∧ l.queue ≠ [])
      ∧ (LaneSettings.valid ⟨.exit, 51, 10, 600⟩ = false ∧ LaneSettings.valid ⟨.exit, 50, 10, 600⟩ = true)
      ∧ ((laned fun l => { l with loopA := ⟨true, 0, .running 5⟩ }).lane .one).loop .a = ⟨true, 0, .running 5⟩ :=
  ⟨asking_inTurn _ _, asking_inTurn _ _, asking_inTurn _ _, asking_inTurn _ _, asking_inTurn _ _, by decide, by decide, by decide,
    by decide, ⟨0, by decide, by decide, fun j h => absurd h (Nat.not_lt_zero j)⟩, by decide, by decide, by decide⟩

/-- A car whose seat timer runs; field settings outside their range and at its end. -/
theorem test_meets_OccupancyIsKept :
    InTurn 0x48#8 req.tag (asking 0x48#8 ready) ∧ InTurn 0x49#8 req.tag (asking 0x49#8 ready)
      ∧ FieldSettings.valid ⟨193, 900, 4⟩ = false ∧ FieldSettings.valid ⟨192, 3600, 1⟩ = true
      ∧ (let s := (showing .holding 0 [cue 1 5 .finish]).setField .one { ready.fields.get .one with inbound := [⟨1, 0, 900000⟩] }
         (s.fields.get .one).inbound[0]? = some ⟨1, 0, 900000⟩ ∧ (s.screens.get .one).state = .holding
         ∧ (s.fields.get .one).inbound.length - 1 ≤ (s.screens.get .one).settings.holdThreshold ∧ nothingDue (s.screens.get .one))
      ∧ (ready.screens.get .one).state ≠ .holding
      ∧ (let s := linked fun l => { l with live := 0 }
         State.level s (.fieldFull .one) = false) :=
  ⟨asking_inTurn _ _, asking_inTurn _ _, by decide, by decide, by unfold nothingDue noCueDue; decide, by decide, by decide⟩

/-- A full field whose capacity is below its margin; field settings; an ADMIT for a full field and for one that is not. -/
theorem test_meets_FieldFullIsDecidedByItsTable :
    (State.level ready (.fieldFull .one) = true
      ∧ (ready.fields.get .one).effective < (ready.fields.get .one).settings.reopenMargin)
      ∧ InTurn 0x48#8 req.tag (asking 0x48#8 ready) ∧ InTurn 0x41#8 req.tag (asking 0x41#8 ready)
      ∧ FieldSettings.valid ⟨1, 60, 32⟩ = true
      ∧ (1 ≤ 1 ∧ 15 ≤ 15 ∧ (ready.lane .one).settings.direction ≠ .exit ∧ (ready.lane .one).queue.length < 8)
      ∧ State.level (linked fun l => { l with live := 0 }) (.fieldFull .one) = false :=
  ⟨by decide, asking_inTurn _ _, asking_inTurn _ _, by decide, by decide, by decide⟩

/-- Items that fit and that do not; a menu in order; live orders and none; an item to be set at the end of its range. -/
theorem test_meets_MenuIsEdited :
    InTurn 0x50#8 req.tag (asking 0x50#8 ready) ∧ InTurn 0x51#8 req.tag (asking 0x51#8 ready)
      ∧ MenuItem.valid (item 251) = false ∧ MenuItem.valid (item 250) = true
      ∧ (let menu := (serving []).orders.menu
         (∀ i ∈ [item 9, item 11], MenuItem.valid i = true ∧ i.code ∉ menu.map (·.code))
         ∧ ([item 9, item 11].map (·.code)).Nodup ∧ menu.Pairwise (fun i j => i.code < j.code) ∧ (serving []).orders.live = []
         ∧ item 10 ∈ menu ∧ (item 10).code = 10 ∧ 11 ∉ menu.map (·.code))
      ∧ (serving [order 1 .ready]).orders.live ≠ []
      ∧ 128 < (List.replicate 128 (item 1)).length + [item 2].length :=
  ⟨asking_inTurn _ _, asking_inTurn _ _, by decide, by decide, by decide, by decide, by decide +kernel⟩

/-- Station settings outside their range and at its end; KITCHEN_SATURATED low and high; an order that is live and one that is not. -/
theorem test_meets_StationsOrderingAndReads :
    InTurn 0x52#8 req.tag (asking 0x52#8 ready) ∧ InTurn 0x53#8 req.tag (asking 0x53#8 ready)
      ∧ InTurn 0x58#8 req.tag (asking 0x58#8 ready)
      ∧ stationsValid ⟨0, 1, 1, 1⟩ 900 = false ∧ stationsValid ⟨1, 8, 1, 1⟩ 60 = true
      ∧ (State.level ready .kitchenSaturated = false
        ∧ State.level (linked fun l => { l with live := BitVec.allOnes 38 }) .kitchenSaturated = true)
      ∧ (order 999 .ready ∈ (serving [order 999 .ready]).orders.live
        ∧ ((serving [order 999 .ready]).orders.live.map (·.number)).Nodup
        ∧ 1 ∉ (serving [order 999 .ready]).orders.live.map (·.number))
      ∧ request? (.orderRead req 1000) = some (0x58#8, req) :=
  ⟨asking_inTurn _ _, asking_inTurn _ _, asking_inTurn _ _, by decide, by decide, by decide, by decide, by decide⟩

/-- Orders in the states the steps want and in others; windows with room and full ones. -/
theorem test_meets_OrdersAreStepped :
    InTurn 0x54#8 req.tag (asking 0x54#8 ready) ∧ InTurn 0x55#8 req.tag (asking 0x55#8 ready)
      ∧ (serving [order 1 .received]).orders.find 1 = some (order 1 .received)
      ∧ (serving [order 999 .accepted]).orders.find 999 = some (order 999 .accepted)
      ∧ (order 1 .ready).state ≠ .received
      ∧ (let t := (serving [order 1 .accepted]).orders
         (t.windows.get .one).length < 32 ∧ (0 = 0 ∧ ∀ v ∈ Nr.all, (t.windows.get v).length < 32 →
           (t.windows.get .one).length < (t.windows.get v).length
             ∨ ((t.windows.get .one).length = (t.windows.get v).length ∧ Nr.one.toNat ≤ v.toNat)))
      ∧ (∀ w ∈ Nr.all, 32 ≤ ((Four.all (List.replicate 32 0)).get w).length) :=
  ⟨asking_inTurn _ _, asking_inTurn _ _, by decide, by decide, by decide, by decide, by decide⟩

/-- Orders in the kitchen and at a window, with each of their timers running. -/
theorem test_meets_OrdersEndAndTheirTimersExpire :
    InTurn 0x56#8 req.tag (asking 0x56#8 ready) ∧ InTurn 0x57#8 req.tag (asking 0x57#8 ready)
      ∧ (let o : Order := { order 1 .received with acceptance := some 60000 }
         (serving [o]).orders.find 1 = some o ∧ o.acceptance = some 60000)
      ∧ (let o : Order := { order 999 .ready with reminder := some 600000, stale := some 1800000, bayEmpty := some 120000 }
         (serving [o]).orders.find 999 = some o ∧ o.state = .ready ∧ o.reminder = some 600000 ∧ o.stale = some 1800000
         ∧ o.bayEmpty = some 120000)
      ∧ (order 1 .received).state ≠ .ready ∧ Hears .order 2 ready :=
  ⟨asking_inTurn _ _, asking_inTurn _ _, by decide, by decide, by decide, by unfold Hears; decide⟩

/-- An order that fails each check in turn, and one that passes them; cancels of orders in each state, and of none. -/
theorem test_meets_OrdersArriveFromPosts :
    let s := (serving []).setNode .one 5 presentPost
    let good : Keyed := ⟨0, 1, [⟨10, 9⟩]⟩
    let openTable (s : State) : State := s.setOrders { s.orders with ordering := .all true }
    [10#8, 9#8].length = 2 * (1#8 : Byte).toNat
      ∧ ¬ ((⟨3, 1, [⟨10, 9⟩]⟩ : Keyed).mode ≤ 2)
      ∧ (good.mode ≤ 2 ∧ 1 ≤ good.count ∧ good.count ≤ 8 ∧ ∀ l ∈ good.lines, 1 ≤ l.quantity ∧ l.quantity ≤ 9)
      ∧ (s.orders.ordering.get .one = false ∧ (openTable s).orders.ordering.get .one = true)
      ∧ (((s.node .one 5).bay .left).enabled = true ∧ ((s.node .one 5).bay .left).presence = .occupied)
      ∧ ((s.node .one 5).bay .right).presence ≠ .occupied
      ∧ (let t := (serving [order 1 .ready, order 2 .ready]).orders
         2 ≤ (t.live.filter fun o => decide (o.field = .one ∧ o.post = 5 ∧ o.side = .left)).length)
      ∧ (∃ i, s.orders.item 10 = some i ∧ i.availability = .available) ∧ s.orders.item 11 = none
      ∧ s.orders.live.length < 256 ∧ 256 ≤ (List.replicate 256 (order 1 .ready)).length
      ∧ noneDeferred .one s ∧ (1 ≤ s.orders.nextNumber ∧ s.orders.nextNumber ≤ 999)
      ∧ IsFirstFree 999 (s.orders.live.map (·.number)) s.orders.nextNumber 1
      ∧ (let t := (serving [order 1 .received, order 2 .accepted]).orders
         order 1 .received ∈ t.live ∧ order 2 .accepted ∈ t.live ∧ (t.live.map (·.number)).Nodup
         ∧ ∀ o ∈ t.live, ¬ o.number = 3) := by
  refine ⟨by decide, by decide, by decide, by decide +kernel, by decide +kernel, by decide +kernel, by decide, ⟨item 10, by decide +kernel⟩,
    by decide +kernel, by decide +kernel, by decide +kernel, ?_, by decide +kernel, ⟨0, by decide +kernel, by decide +kernel,
      fun j h => absurd h (Nat.not_lt_zero j)⟩, by decide⟩
  unfold noneDeferred
  decide +kernel

/-- The exciter polled for discovery, SILENT, and PRESENT with a status that changes and that does not. -/
theorem test_meets_exciter_replies :
    let s (poll : Poll) (v : Node) : State :=
      (lined fun l => { l with state := .running, wire := .exchange, poll := some poll }).setNode .one 0 v
    (((s ⟨0, 2, true⟩ Node.reset).node .one 0).state = .absent
      ∧ ((s ⟨0, 2, false⟩ { Node.reset with state := .silent }).node .one 0).state = .silent
      ∧ ((s ⟨0, 2, false⟩ { Node.reset with state := .present }).node .one 0).state = .present)
      ∧ (∀ status ∈ [0x00#8, 0x13#8], windowOutcome 0 (replyBits [0#8, status]) = (.good, withCrc [byteOf 0, status]))
      ∧ (0x00#8 : Byte).getLsbD 0 = (ready.posts.get .one).carrier ∧ (0x00#8 : Byte).getLsbD 1 = (ready.posts.get .one).powerLow
      ∧ (0x13#8 : Byte).getLsbD 0 ≠ (ready.posts.get .one).carrier := by decide +kernel

/-- A reply with an upstream CALL and the same reply without it; a new toggle and the one last accepted. An order of the post polled
whose bay empties, and one whose mark is set. -/
theorem test_meets_upstream_and_bay_replies :
    windowOutcome 5 (replyBits [5#8, 0x13#8, 0x03#8, 0#8, 1#8]) = (.good, withCrc [byteOf 5, 0x13#8, 0x03#8, 0#8, 1#8])
      ∧ windowOutcome 5 (replyBits [5#8, 0x03#8]) = (.good, withCrc [byteOf 5, 0x13#8 &&& 0xEF#8])
      ∧ (0x13#8 : Byte).getLsbD 4 = true
      ∧ presentPost.upToggle ≠ some ((0x13#8 : Byte).getLsbD 3)
      ∧ ({ presentPost with upToggle := some false } : Node).upToggle = some ((0x13#8 : Byte).getLsbD 3)
      ∧ (let s := (polling ⟨5, 2, false⟩ presentPost).setOrders { ready.orders with
           live := [order 1 .received, { order 2 .ready with bayEmptyReported := true }] }
         order 1 .received ∈ s.orders.live ∧ (order 1 .received).field = .one ∧ (order 1 .received).post = 5
         ∧ (s.orders.live.map (·.number)).Nodup)
      ∧ (0x02#8 : Byte).getLsbD 0 ≠ decide ((presentPost.bay .left).presence = .occupied)
      ∧ (0x01#8 : Byte).getLsbD 0 = decide (presentPost.left.presence = .occupied)
      ∧ (0x01#8 : Byte).getLsbD 1 = decide (presentPost.right.presence = .occupied) := by decide +kernel

/-- Replies under the toggle of an outstanding message and under the other, with an upstream message and without; the third outcome
in error with a message at the age limit and one short of it. -/
theorem test_meets_replies_to_an_outstanding_message :
    (windowOutcome 5 (replyBits [5#8, 0x03#8]) = (.good, withCrc (byteOf 5 :: 0x03#8 :: []))
      ∧ windowOutcome 5 (replyBits [5#8, 0x05#8]) = (.good, withCrc (byteOf 5 :: 0x05#8 :: []))
      ∧ windowOutcome 5 (replyBits [5#8, 0x17#8, 3#8, 0#8, 1#8]) = (.good, withCrc (byteOf 5 :: 0x17#8 :: [3#8, 0#8, 1#8])))
      ∧ ((0x03#8 : Byte).getLsbD 2 = presentPost.downToggle ∧ (0x05#8 : Byte).getLsbD 2 ≠ presentPost.downToggle)
      ∧ ((0x05#8 : Byte).getLsbD 0 = decide (presentPost.left.presence = .occupied)
        ∧ (0x05#8 : Byte).getLsbD 1 = decide (presentPost.right.presence = .occupied)
        ∧ (0x05#8 : Byte).getLsbD 5 = presentPost.speakerFault ∧ (0x05#8 : Byte).getLsbD 6 = presentPost.keypadFault)
      ∧ ((message (.outstanding 3 2)).mark = .outstanding 3 2 ∧ 2 + 1 = 3)
      ∧ ((polling ⟨5, 2, false⟩ { presentPost with errors := 2 }).node .one 5).errors = 2
      ∧ (59999 < (message .waiting).entered + 60000 ∧ ¬ 60000 < (message .waiting).entered + 60000) := by decide +kernel

/-- Cues that ask for a chime and one that does not; a free field with no record waiting, a field that is held, and a full queue. -/
theorem test_meets_chimes_of_the_timeline :
    let s (a : CueAction) : State := screened fun x => { x with
      filter := ⟨.waitHigh, 1⟩, state := .running, position := 4, cues := [cue 1 5 a] }
    (((s (.announce 8 3)).screens.get .one).cues = [] ++ cue 1 5 (.announce 8 3) :: []
      ∧ ((s (.intermissionBegin 1)).screens.get .one).cues = [] ++ cue 1 5 (.intermissionBegin 1) :: []
      ∧ ((s (.intermissionBegin 0)).screens.get .one).cues = [] ++ cue 1 5 (.intermissionBegin 0) :: [])
      ∧ ((s (.announce 8 3)).announce.queue = [] ∧ 1 ≤ (s (.announce 8 3)).announce.nextId
        ∧ (s (.announce 8 3)).announce.nextId ≤ 255 ∧ (s (.announce 8 3)).announce.active.length < 255)
      ∧ (∀ b ∈ (s (.announce 8 3)).announce.active, b.targets.get .one = false)
      ∧ (∃ b ∈ (announcing (ann 9 .chime 1 2 .chime)).announce.active, b.targets.get .one = true ∧ (2 ≠ 1 ∨ b.priority = 1))
      ∧ 16 ≤ (List.replicate 16 (ann 1 .chime 1 2 .queued)).length ∧ Hears .announce 4 (s (.announce 8 3)) := by
  refine ⟨by decide, by decide, by decide, ⟨_, List.mem_singleton.mpr rfl, by decide, by decide⟩, by decide, ?_⟩
  unfold Hears
  decide

/-- Records of priority 1 and 3 that wait for field 1, a new one of priority 2 for it and one for field 2; records before and after
the one that an ended record makes room for. -/
theorem test_meets_records_that_wait :
    let held := ann 1 .chime 1 1 .chime
    let other : Ann := { ann 5 .chime 1 1 .chime with targets := ⟨false, true, false, false⟩ }
    let both : Ann := { ann 2 .chime 1 1 .queued with targets := ⟨true, true, false, false⟩ }
    let blocks (x b : Ann) : Prop := (∃ n, x.targets.get n = true ∧ b.targets.get n = true) ∨ (x.kind = .live ∧ b.kind = .live)
    (let queue := [ann 2 .chime 1 1 .queued, ann 3 .chime 1 3 .queued]
     (queue.Pairwise fun x y => x.priority ≤ y.priority) ∧ (∀ x ∈ queue, blocks x held ∧ (x.priority ≠ 1 ∨ held.priority = 1))
     ∧ IsFirstFree 255 (queue.map (·.id) ++ [held].map (·.id)) 4 4)
    ∧ (let queue := [both] ++ ann 3 .chime 1 2 .queued :: [ann 4 .chime 1 3 .queued]
       ((queue ++ [held, other]).map (·.id)).Nodup
       ∧ ([held, other].filter fun b => decide (b.id ≠ held.id)) = [other]
       ∧ (blocks both other ∧ other.priority = 1) ∧ ¬ blocks (ann 3 .chime 1 2 .queued) other
       ∧ (blocks (ann 4 .chime 1 3 .queued) (ann 3 .chime 1 2 .queued) ∧ (ann 4 .chime 1 3 .queued).priority ≠ 1)) := by
  refine ⟨⟨by decide, ?_, 0, by decide, by decide, fun j h => absurd h (Nat.not_lt_zero j)⟩, by decide, by decide,
    ⟨.inl ⟨.two, by decide⟩, by decide⟩, ?_, .inl ⟨.one, by decide⟩, by decide⟩
  · intro x h
    simp only [List.mem_cons, List.not_mem_nil, or_false] at h
    rcases h with rfl | rfl <;> exact ⟨.inl ⟨.one, by decide⟩, by decide⟩
  · rintro (⟨n, h⟩ | h)
    · cases n <;> exact absurd h (by decide)
    · exact absurd h (by decide)

/-- Both loops of a lane at the end of their filters. -/
theorem test_meets_both_loops_change :
    let l := (laned fun l => { l with decoder := .inAB, loopA := ⟨true, 3, .running 9⟩, loopB := ⟨true, 3, .running 9⟩ }).lane .one
    l.sampled = true ∧ l.settings.filterCount ≤ l.loopA.run + 1 ∧ l.settings.filterCount ≤ l.loopB.run + 1 := by decide

/-- Two deferred orders and one that is not, on a screen at its release position, short of it and stopped by request; orders that owe
notices, at a post that returns and at one that is PRESENT while a message ages out; dropped notices that are an order's latest
status, at a PRESENT post and at a SILENT one. -/
theorem test_meets_OrdersFollowShowsAndPosts :
    let deferred (number : Nat) : Order := { order number .deferred with mode := .intermission }
    let s := (serving [deferred 1, order 2 .accepted, deferred 3]).setScreen .one { Screen.reset with
      state := .running, filter := ⟨.waitHigh, 1⟩, position := 9, cues := [firedCue 3 5, cue 1 11 (.intermissionBegin 0)] }
    ((s.orders.live.map (·.number)).Nodup ∧ (deferred 1).state = .deferred
      ∧ (s.screens.get .one).state = .running ∧ (s.screens.get .one).filter = ⟨.waitHigh, 1⟩
      ∧ (s.screens.get .one).position + 1 < 16777215 ∧ InTurn 0x17#8 req.tag (asking 0x17#8 s))
      ∧ (∀ c ∈ (s.screens.get .one).cues, c.fired = true ∨ 10 < c.position)
      ∧ (11 ≤ 9 + 1 + 1 * 1 ∧ ¬ 11 ≤ 9 + 1 + 0 * 24)
      ∧ (let v : Node := { Node.reset with state := .silent }
         let r : Order := { order 1 .accepted with owed := some .accepted }
         let t := (polling ⟨5, 2, false⟩ v).setOrders { ready.orders with live := [r] }
         (t.node .one 5).state = .silent ∧ r ∈ t.orders.live ∧ r.owed ≠ none ∧ (t.lines.get .one).state ≠ .off
         ∧ (List.replicate 47 (message .waiting)).length = 47)
      ∧ (let r := order 1 .accepted
         let e : DownEntry := ⟨3, 5, .orderStatus .left 1 .accepted 0 100 1, .order 1, 0, .outstanding 3 2⟩
         let t := queueing [e] ((polling ⟨5, 2, false⟩ presentPost).setOrders { ready.orders with live := [r] })
         e ∈ (t.posts.get .one).queue ∧ (t.node .one 5).state = .present ∧ r ∈ t.orders.live ∧ r.owed = none ∧ r.post = 5
         ∧ (∀ q ∈ t.orders.live, q.owed = none))
      ∧ (let t := queueing [message .waiting] ready
         message .waiting ∈ (t.posts.get .one).queue ∧ ∀ a : Fin 97, a.val = 5 → (t.node .one a).state ≠ .present) := by
  refine ⟨⟨by decide, rfl, rfl, rfl, by decide, asking_inTurn _ _⟩, by decide, by decide, by decide +kernel, by decide +kernel,
    by decide +kernel, ?_⟩
  intro a h
  have : a = 5 := Fin.ext h
  subst this
  decide +kernel

/-- A second length byte that gives 1 and one that gives 515; a frame that holds a whole frame and fails its check; kept bytes with a
marker among them, in LENGTH and in FRAME. -/
theorem test_meets_discarded_frames :
    let held : List Byte := 16#8 :: 0#8 :: (linkFrame 1#8 7#8 [] ++ linkFrame 1#8 7#8 [] ++ [0xC5#8, 2#8, 0#8])
    (let s := linked fun l => { l with rx := ⟨.length, [1#8], some 50⟩ }
     s.link.rx.state = .length ∧ s.link.rx.kept = [1#8] ∧ (1#8 : Byte).toNat + 256 * (0#8 : Byte).toNat < 2)
      ∧ 514 < (3#8 : Byte).toNat + 256 * (2#8 : Byte).toNat
      ∧ (let s := linked fun l => { l with rx := ⟨.frame, held, some 50⟩ }
         s.link.rx.state = .frame ∧ (∃ more, s.link.rx.kept ++ [1#8] = 16#8 :: 0#8 :: more ∧ more.length = 16 + 0 + 2)
         ∧ crcMatches (held ++ [1#8]) = false ∧ (huntAll (held ++ [1#8])).frames ≠ [] ∧ s.link.rx.gap = some 50 ∧ 0xC5#8 ∈ held)
      ∧ (linked fun l => { l with rx := ⟨.length, [0xC5#8], some 50⟩ }).link.rx.state = .length :=
  ⟨by decide, by decide, ⟨rfl, ⟨_, rfl, by decide +kernel⟩, by decide +kernel, by decide +kernel, rfl, by decide +kernel⟩, rfl⟩

/-- A reply that is being sent, of another kind than RESTART's, with replies and reports that wait; an idle transmitter in HUNT with
a report that waits; a command that leaves the transmitter idle. -/
theorem test_meets_the_transmitter_chooses :
    let r : Reply := ⟨3, 0x81#8, 7#8, .ok, .empty⟩
    let later : Reply := ⟨4, 0x81#8, 8#8, .busy, .empty⟩
    let other : QueuedReport := ⟨false, .orderNew 1 .one 5 .left .pickup [] 0 0 (.all 0)⟩
    (let s := linked fun l => { l with tx := .reply r, busy := [later], queue := [other] }
     s.link.tx = .reply r ∧ s.link.restart = none ∧ s.link.restartDue = false ∧ later ∈ s.link.busy)
      ∧ (linked fun l => { l with tx := .busy later, queue := [other] }).link.tx = .busy later
      ∧ (let s := linked fun l => { l with queue := [other] }
         s.link.tx = .idle ∧ s.link.restartDue = false ∧ s.link.rx.state = .hunt ∧ s.link.busy = []
         ∧ (∀ p ∈ s.link.requests, p.reply = none) ∧ s.link.queue = other :: [])
      ∧ ∃ t, exec .framingError ready = .next t ∧ t.link.restartDue = false ∧ t.link.tx = .idle :=
  ⟨by decide, by decide, by decide, _, rfl, by decide⟩

/-- GOOD replies whose length does not fit their upstream bit: one byte more than a status, a bit without a message, and a longer
reply of the exciter, whose bit counts for nothing (R106). -/
theorem test_meets_replies_that_do_not_fit :
    (∀ bytes ∈ [[5#8, 0x03#8, 0x00#8], [5#8, 0x13#8]], windowOutcome 5 (replyBits bytes) = (.good, withCrc bytes))
      ∧ windowOutcome 0 (replyBits [0#8, 0x10#8, 0x03#8]) = (.good, withCrc [0#8, 0x10#8, 0x03#8])
      ∧ ((0x03#8 : Byte).getLsbD 4 = false ∧ (withCrc [5#8, 0x03#8, 0x00#8]).length ≠ 4)
      ∧ ((0x13#8 : Byte).getLsbD 4 = true ∧ (withCrc [5#8, 0x13#8]).length < 5)
      ∧ (withCrc [0#8, 0x10#8, 0x03#8]).length ≠ 4 := by decide +kernel

/-- Upstream messages that are discarded, each in its own way: a kind, lengths, a side and a code (R114). -/
theorem test_meets_upstream_messages_that_are_discarded :
    ((4#8 : Byte) ≠ 0x01#8 ∧ (4#8 : Byte) ≠ 0x02#8 ∧ (4#8 : Byte) ≠ 0x03#8)
      ∧ [0#8, 0#8, 2#8, 10#8, 1#8].length ≠ 3 + 2 * ([0#8, 0#8, 2#8, 10#8, 1#8].getD 2 0x00#8).toNat
      ∧ [0#8, 1#8].length ≠ 3 ∧ [0#8].length ≠ 2
      ∧ ([2#8, 1#8].getD 0 0x00#8 ≠ 0x00#8 ∧ [2#8, 1#8].getD 0 0x00#8 ≠ 0x01#8)
      ∧ ([0#8, 3#8].getD 1 0x00#8 ≠ 0x01#8 ∧ [0#8, 3#8].getD 1 0x00#8 ≠ 0x02#8) := by decide

/-- A show at a position with a fired cue, a mark, a hold point, END and a mark that are due there, and a cue to come. -/
def manyDue (state : ShowState) (holds : Bool) (position : Nat) : State :=
  (screened fun x => { x with
    filter := ⟨.waitHigh, 1⟩, state := state, position := position, maxHold := some 9, overrun := 4
    cues := [firedCue 1 3, cue 2 5 (.mark 1), cue 3 5 .holdPoint, cue 4 5 .finish, cue 5 5 (.mark 2), cue 6 9 .finish]
    settings := { x.settings with holdEnable := holds, holdThreshold := 0 } }).setField .one
    { ready.fields.get .one with inbound := [⟨1, 0, 900⟩] }

/-- Several due cues on one frame, of which a hold point or END stops the fire pass; a due cue at the last position; the same cues
at SHOW_GO and at a hold's end. -/
theorem test_meets_fire_passes :
    (let x := (manyDue .running true 4).screens.get .one
     x.state = .running ∧ x.filter = ⟨.waitHigh, 1⟩ ∧ x.position < 16777215 ∧ (x.cues.map (·.number)).Nodup
     ∧ x.cues = [firedCue 1 3, cue 2 5 (.mark 1)] ++ cue 3 5 .holdPoint :: [cue 4 5 .finish, cue 5 5 (.mark 2), cue 6 9 .finish]
     ∧ x.cues = [firedCue 1 3, cue 2 5 (.mark 1), cue 3 5 .holdPoint] ++ cue 4 5 .finish :: [cue 5 5 (.mark 2), cue 6 9 .finish]
     ∧ (cue 3 5 .holdPoint).fired = false ∧ (cue 3 5 .holdPoint).position ≤ 5 ∧ x.settings.holdEnable = true
     ∧ x.settings.holdThreshold < ((manyDue .running true 4).fields.get .one).inbound.length
     ∧ ((manyDue .running false 4).screens.get .one).settings.holdEnable = false
     ∧ (∀ d ∈ [firedCue 1 3, cue 2 5 (.mark 1)], d.fired = true ∨ d.action = .mark 1))
      ∧ (let x := (showing .running 16777214 [cue 1 16777215 (.mark 1)]).screens.get .one
         x.position < 16777215 ∧ x.position + 1 = 16777215 ∧ ∀ d ∈ x.cues, d.fired = false ∧ d.position ≤ 16777215 ∧ d.action = .mark 1)
      ∧ (InTurn 0x16#8 req.tag (asking 0x16#8 (manyDue .armed true 5)) ∧ ((manyDue .armed true 5).screens.get .one).state = .armed)
      ∧ (InTurn 0x18#8 req.tag (asking 0x18#8 (manyDue .holding true 5))
        ∧ ((manyDue .holding true 5).screens.get .one).state = .holding
        ∧ ((manyDue .holding true 5).screens.get .one).maxHold = some 9)
      ∧ (∃ t, exec (.frameCounted .one [true]) (manyDue .running true 4) = .next t ∧ Heard .show (manyDue .running true 4) t) :=
  ⟨by decide, by decide, ⟨asking_inTurn _ _, by decide⟩, ⟨asking_inTurn _ _, by decide, by decide⟩,
    heard_of_losesNone (by decide +kernel)⟩

/-- Holds that end, with cues due at the held position: by SHOW_STOP, by a threshold at the inbound count, by the seat timer of the
last car inbound, and by a bay that fills. -/
theorem test_meets_holds_that_end :
    let s := manyDue .holding true 5
    let v : ScreenSettings := { (s.screens.get .one).settings with holdThreshold := 1 }
    let seating := (s.setLine .one ((polling ⟨5, 2, false⟩ presentPost).lines.get .one)).setNode .one 5 presentPost
    let bits := replyBits [5#8, 3#8]
    ((s.screens.get .one).state = .holding ∧ ((s.screens.get .one).cues.map (·.number)).Nodup)
      ∧ (InTurn 0x17#8 req.tag (asking 0x17#8 s)
        ∧ ∃ t, exec (.showStop req 1) (asking 0x17#8 s) = .next t ∧ Heard .show (asking 0x17#8 s) t)
      ∧ (InTurn 0x10#8 req.tag (asking 0x10#8 s) ∧ ScreenSettings.valid v = true ∧ (s.fields.get .one).inbound.length ≤ v.holdThreshold
        ∧ ∃ t, exec (.screenSet req 1 v) (asking 0x10#8 s) = .next t ∧ Heard .show (asking 0x10#8 s) t)
      ∧ ((s.fields.get .one).inbound[0]? = some ⟨1, 0, 900⟩
        ∧ (s.fields.get .one).inbound.length - 1 ≤ (s.screens.get .one).settings.holdThreshold
        ∧ ∃ t, exec (.seatTimeout .one 0) s = .next t ∧ Heard .show s t)
      ∧ (windowOutcome 5 bits = (.good, withCrc [byteOf 5, 3#8]) ∧ (seating.node .one 5).state = .present
        ∧ losesNone .show (.replyWindowEnd .one bits) seating = true
        ∧ (match exec (.replyWindowEnd .one bits) seating with
          | .next t => decide ((t.fields.get .one).inbound.length < (seating.fields.get .one).inbound.length
            ∧ (t.fields.get .one).inbound.length ≤ (seating.screens.get .one).settings.holdThreshold)
          | _ => false) = true) :=
  ⟨by decide, ⟨asking_inTurn _ _, heard_of_losesNone (by decide +kernel)⟩,
    ⟨asking_inTurn _ _, by decide, by decide, heard_of_losesNone (by decide +kernel)⟩,
    ⟨by decide, by decide, heard_of_losesNone (by decide +kernel)⟩, by decide +kernel, by decide +kernel, by decide +kernel,
    by decide +kernel⟩

/-- Lines that stop with a survey waiting, start into a driver fault, run, and fault, each with a PRESENT post and an aged message;
surveys that begin and end; no report is lost. -/
theorem test_meets_reports_of_lines :
    (let s := asking 0x3A#8 ((aging fun l => { l with state := .running }).setSurvey .one { SurveyUnit.reset with state := .waiting })
     (s.lines.get .one).state ≠ .off ∧ (s.surveys.get .one).state ≠ .idle
     ∧ ∃ t, exec (.lineStop req 1) s = .next t ∧ Heard .line s t)
    ∧ (let s := asking 0x39#8 (aging fun l => { l with lfault := ⟨true, 0⟩ })
       (s.lines.get .one).state = .off ∧ (s.lines.get .one).lfault.level = true ∧ numbersDistinct s .one
       ∧ ∃ t, exec (.lineStart req 1) s = .next t ∧ Heard .line s t)
    ∧ (let s := whole (aging fun l => { l with state := .starting, started := true, startCount := 9, lfault := ⟨true, 0⟩ })
       (s.lines.get .one).state = .starting ∧ (s.lines.get .one).startCount = 9 ∧ numbersDistinct s .one
       ∧ ∃ t, exec (.startingComplete .one) s = .next t ∧ Heard .line s t)
    ∧ (let s := whole (aging fun l => { l with state := .survey, lfault := ⟨true, 0⟩ })
       (s.lines.get .one).state = .survey ∧ (s.surveys.get .one).state = .idle ∧ numbersDistinct s .one
       ∧ ∃ t, exec (.surveyReturnToRunning .one) s = .next t ∧ Heard .line s t)
    ∧ (let s := aging fun l => { l with state := .running, lfault := ⟨false, 1⟩ }
       (s.lines.get .one).lfault = ⟨false, 1⟩ ∧ (s.lines.get .one).state = .running ∧ numbersDistinct s .one
       ∧ ∃ t, exec (.lfaultLevelChange .one [true]) s = .next t ∧ Heard .line s t)
    ∧ (let s := (whole (lined fun l => { l with state := .running, wire := .flags })).setSurvey .one
         { SurveyUnit.reset with state := .waiting }
       ∃ t, exec (.surveyBeginAtBoundary .one) s = .next t ∧ Heard .line s t)
    ∧ (let s := ready.setSurvey .one { SurveyUnit.reset with state := .measuring, timer := some 40 }
       (s.surveys.get .one).launch = none ∧ ∃ t, exec (.surveyComplete .one) s = .next t ∧ Heard .line s t) := by
  refine ⟨⟨by decide, by decide, heard_of_losesNone (by decide +kernel)⟩, ?_, ?_, ?_, ?_, heard_of_losesNone (by decide +kernel),
    by decide, heard_of_losesNone (by decide +kernel)⟩ <;>
  exact ⟨by decide, by decide, by unfold numbersDistinct; decide, heard_of_losesNone (by decide +kernel)⟩

/-- A post that enters PRESENT, one whose fault flags change, one at its third error with an aged message, one that is disabled and
one that is enabled again; no report is lost. -/
theorem test_meets_reports_of_posts :
    (∃ t, exec (.replyWindowEnd .one (replyBits [5#8, 0x21#8])) (polling ⟨5, 2, true⟩ Node.reset) = .next t
      ∧ Heard .line (polling ⟨5, 2, true⟩ Node.reset) t)
    ∧ (presentPost.speakerFault ≠ (0x21#8 : Byte).getLsbD 5
      ∧ ∃ t, exec (.replyWindowEnd .one (replyBits [5#8, 0x21#8])) (polling ⟨5, 2, false⟩ presentPost) = .next t
        ∧ Heard .line (polling ⟨5, 2, false⟩ presentPost) t)
    ∧ (let s := (aging fun l => { l with state := .running, wire := .exchange, poll := some ⟨5, 2, false⟩ }).setNode .one 5
         { presentPost with errors := 2 }
       2 ≤ (s.node .one 5).errors ∧ (s.node .one 5).state = .present
       ∧ ∃ t, exec (.replyWindowEnd .one []) s = .next t ∧ Heard .line s t)
    ∧ (let s := asking 0x3D#8 (aging fun l => l)
       (s.node .one 5).state ≠ .disabled ∧ ∃ t, exec (.postSet req 1 5 true true true 0xFFFF) s = .next t ∧ Heard .line s t)
    ∧ (let s := asking 0x3D#8 (ready.setNode .one 5 { Node.reset with state := .disabled })
       (s.node .one 5).state = .disabled ∧ ∃ t, exec (.postSet req 1 5 false true true 0xFFFF) s = .next t ∧ Heard .line s t)
    ∧ (let s := asking 0x3D#8 ready
       ∃ t, exec (.postSet req 1 0 true true true 0xFFFF) s = .next t ∧ Heard .line s t) :=
  ⟨heard_of_losesNone (by decide +kernel), ⟨by decide, heard_of_losesNone (by decide +kernel)⟩,
    ⟨by decide, by decide, heard_of_losesNone (by decide +kernel)⟩, ⟨by decide, heard_of_losesNone (by decide +kernel)⟩,
    ⟨by decide, heard_of_losesNone (by decide +kernel)⟩, heard_of_losesNone (by decide +kernel)⟩

/-- A node without an outstanding message, and one whose message is due for resend; a lane that has seen no sample. -/
theorem test_meets_readouts :
    (let out : Option OutstandingReadout := none
     ((∀ e ∈ (ready.posts.get .one).queue, e.address = 5 → e.mark = .waiting) → out = none)
     ∧ ∀ before e after sends polls, (ready.posts.get .one).queue = before ++ e :: after →
       (∀ q ∈ before, q.address = 5 → q.mark = .waiting) → e.address = 5 → e.mark = .outstanding sends polls →
       out = some ⟨e.number, e.msg.kind, sends, polls, decide (polls = 3)⟩)
    ∧ (let s := queueing [message (.outstanding 2 3)] ready
       let out : Option OutstandingReadout := some ⟨3, .chime, 2, 3, true⟩
       ((∀ e ∈ (s.posts.get .one).queue, e.address = 5 → e.mark = .waiting) → out = none)
       ∧ ∀ before e after sends polls, (s.posts.get .one).queue = before ++ e :: after →
         (∀ q ∈ before, q.address = 5 → q.mark = .waiting) → e.address = 5 → e.mark = .outstanding sends polls →
         out = some ⟨e.number, e.msg.kind, sends, polls, decide (polls = 3)⟩)
    ∧ (ready.lane .one).sampled = false := by
  refine ⟨⟨fun _ => rfl, ?_⟩, ⟨fun h => absurd (h (message (.outstanding 2 3)) (by decide) rfl) (by decide), ?_⟩, by decide⟩
  · intro before e after sends polls h
    exact absurd (congrArg List.length h) (by simp [show (ready.posts.get .one).queue = [] from rfl])
  · intro before e after sends polls h _ _ hm
    have hq : [message (.outstanding 2 3)] = before ++ e :: after := h
    cases before with
    | nil =>
      obtain ⟨rfl, -⟩ := List.cons.inj hq
      cases hm
      rfl
    | cons b rest => simp at hq

/-- STARTED and another report being sent; numbers at the ends of their ranges. -/
theorem test_meets_report_bodies :
    let other : Report := .orderNew 1 .one 5 .left .pickup [] 0 0 (.all 0)
    (∀ r ∈ [other, .started .restartState], (linked fun l => { l with tx := .report ⟨true, r⟩ }).link.tx = .report ⟨true, r⟩)
      ∧ (∀ reason, other ≠ .started reason) ∧ 16777215 < 256 ^ ItemName.leastBytes .position
      ∧ 33177600 < 256 ^ ItemName.leastBytes .estimate ∧ 719928 < 256 ^ ItemName.leastBytes .total
      ∧ 4294967295 < 256 ^ ItemName.leastBytes .siteCount ∧ 255 < 256 ^ ItemName.leastBytes .cueNumber :=
  ⟨by decide, fun reason => by cases reason <;> decide, by decide, by decide, by decide, by decide, by decide⟩

/-! ### One step of each family, on a small state -/

/-- Whether a command answers a next state of which something holds. -/
def after (c : Instr) (s : State) (holds : State → Bool) : Bool :=
  match exec c s with
  | .next t => holds t
  | _ => false

/-- IDENTIFY waits, is answered, and its reply is being sent (R196, R197). -/
theorem test_identify_is_answered :
    after (.identify req) (asking 0x01#8 ready) (fun t =>
      t.link.requests.map (fun q => q.reply.map (·.result)) == [some .ok] && t.link.tx != .idle) = true := by decide +kernel

/-- SHOW_GO of an ARMED show runs it and starts its stall timer (R11, R22). -/
theorem test_showGo_runs :
    after (.showGo req 1) (asking 0x16#8 (showing .armed 0 [cue 1 5 .finish])) (fun t =>
      (t.screens.get .one).state == .running && (t.screens.get .one).stall == some 250) = true := by decide +kernel

/-- An ADMIT for a full field is refused, and with the override flag it is taken (R146). -/
theorem test_admit_full_field :
    after (.admitCar req 1 2 .car 2 false) (asking 0x41#8 ready) (fun t =>
      (t.lane .one).queue.isEmpty && t.link.requests.map (fun q => q.reply.map (·.result)) == [some .fieldFull]) = true
    ∧ after (.admitCar req 1 2 .car 2 true) (asking 0x41#8 ready) (fun t =>
      (t.lane .one).queue == [⟨1, .two, .car, 2, 0, 120000⟩]) = true := by decide +kernel

/-- ORDER_ACCEPT moves an order on; its notice stays owed while the line is OFF (R183, R188). -/
theorem test_orderAccept :
    after (.orderAccept req 1) (asking 0x54#8 (serving [order 1 .received])) (fun t =>
      t.orders.live.map (fun o => (o.state, o.owed)) == [(.accepted, some .accepted)]) = true := by decide +kernel

/-- A GOOD reply of a post polled for discovery makes it PRESENT and counts its bays (R109, R153). -/
theorem test_discovery :
    after (.replyWindowEnd .one (replyBits [5#8, 1#8])) (polling ⟨5, 2, true⟩ Node.reset) (fun t =>
      (t.node .one 5).state == .present && (t.fields.get .one).capacity == 2 && (t.fields.get .one).seated == 1) = true := by
  decide +kernel

/-- With field audio OFF the first boundary leaves the mixer silent, and the block goes nowhere (R44, R51, R89). -/
theorem test_blockBoundary :
    after (.blockBoundary .one) blockWhole (fun t =>
      (t.mixers.get .one).fade == .silent && (t.lines.get .one).sequence == 1#8 && (t.lines.get .one).wire == .undriven) = true := by
  decide +kernel

/-- The 97th sample instant ends the block and begins the next (R44); a boundary before the 96th does nothing. -/
theorem test_sampleInstant_after_a_block :
    after .sampleInstant blockWhole (fun t =>
      (t.mixers.get .one).block.length == 1 && (t.mixers.get .two).block.length == 1 && (t.lines.get .one).sequence == 1#8
        && (t.lines.get .two).sequence == 0#8) = true
    ∧ after (.blockBoundary .one) ready (fun t => t == ready.kick) = true := by decide +kernel

/-- A start, a survey's begin and a return come at their boundary, with its block, and within a block not at all (R92, R96, R128). -/
theorem test_boundaries_of_a_line :
    let starting := lined fun l => { l with state := .starting, started := true, startCount := 9 }
    let back := lined fun l => { l with state := .survey }
    let waits := (lined fun l => { l with state := .running, wire := .flags }).setSurvey .one { SurveyUnit.reset with state := .waiting }
    let carries (t : State) : Bool := let l := t.lines.get .one
      l.state == .running && l.wire == .audio && l.audioFrame == some ⟨1#8, List.replicate 96 ⟨0, 0⟩⟩
    (after (.startingComplete .one) (whole starting) carries ∧ after (.blockBoundary .one) (whole starting) carries
      ∧ after (.startingComplete .one) starting fun t => t == starting.kick)
    ∧ (after (.surveyReturnToRunning .one) (whole back) carries ∧ after (.surveyReturnToRunning .one) back fun t => t == back.kick)
    ∧ (after (.surveyBeginAtBoundary .one) (whole waits) (fun t =>
        (t.lines.get .one).state == .survey && (t.surveys.get .one).state == .measuring && (t.mixers.get .one).block == [])
      ∧ after (.surveyBeginAtBoundary .one) waits fun t => t == waits.kick) := by decide +kernel

/-- A cycle is whole before its boundary: an AUDIO frame and a reply window that no command has ended are, the window with NO_REPLY,
also where the boundary begins a survey (R88, R90, R96). -/
theorem test_cycle_is_whole_at_its_boundary :
    let polled (f : LineCtl → LineCtl) : State :=
      whole ((lined fun l => f { l with state := .running, wire := .audio }).setNode .one 5 presentPost)
    let window (t : State) : Bool := (t.lines.get .one).tallies.noReply == 1#32 && (t.node .one 5).errors == 1
    after (.blockBoundary .one) (polled id) (fun t => window t && (t.lines.get .one).wire == .audio) = true
    ∧ after (.surveyBeginAtBoundary .one) ((polled fun l => { l with wire := .exchange, poll := some ⟨5, 2, false⟩ }).setSurvey .one
        { SurveyUnit.reset with state := .waiting }) (fun t => window t && (t.lines.get .one).state == .survey) = true := by
  decide +kernel

/-- Six ones, the zero after them that is no data, and a flag that closes the reply at once; eight ones after it abort (R82, R83). -/
theorem test_ones_before_a_flag :
    receive 0 (.wait none) (flag ++ [true, true, true, true, true, true, false] ++ sharedFlag) = .closed (List.replicate 6 true)
      ∧ receive 0 (.wait none) (flag ++ [true, true, true, true, true, true, false] ++ List.replicate 8 true) = .aborted
      ∧ receive 0 (.wait none) (flag ++ List.replicate 8 true) = .nothing := by decide +kernel

/-- A character with a low stop bit between two good ones (R193). -/
theorem test_characters :
    rxdEvents ([true, true] ++ characterBits 0xC5#8 ++ (false :: byteBits 0x01#8 ++ [false]) ++ [true] ++ characterBits 0x7E#8)
      = [.linkByteReceived 0xC5#8, .framingError, .linkByteReceived 0x7E#8] := by decide +kernel

/-- A received RESTART whose scope is STATE is no RESTART ALL; one of no scope is refused (R206). -/
theorem test_restart_reads_its_scope :
    after (.restartAll req) (receiving 0x02#8 [0x02#8] ready) (fun t => t == (receiving 0x02#8 [0x02#8] ready).kick) = true
    ∧ after (.restartState req) (receiving 0x02#8 [0x02#8] ready) (fun t => t.link.restart == some .state) = true
    ∧ after (.restartAll req) (receiving 0x02#8 [0x03#8] ready) (fun t =>
        t.link.restart == none && t.link.requests.map (fun q => q.reply.map (·.result)) == [some .badValue]) = true := by
  decide +kernel

/-- A PRESENT post that is disabled and has an enable changed in one request changes the counts once: FIELD_FULL stays high (R123,
R153). -/
theorem test_postSet_disables_at_once :
    let v : Node := { presentPost with left := ⟨.occupied, false, none⟩, right := ⟨.empty, false, some 0⟩ }
    after (.postSet req 1 5 true true true 0xFFFF) (asking 0x3D#8 ((ready.setNode .one 5 v).setField .one
        { Occupancy.resetWith FieldSettings.reset with settings := ⟨0, 900, 1⟩ })) (fun t =>
      State.level t (.fieldFull .one) && (t.node .one 5).state == .disabled && (t.fields.get .one).capacity == 0) = true := by
  decide +kernel

/-- A call in a reply is reported once: under its toggle again it is not (R113, R114). -/
theorem test_upstream_is_handed_once :
    let bits := replyBits [5#8, 0x13#8, 0x03#8, 0#8, 1#8]
    let calls (t : State) : Bool := t.link.outgoing.any fun r => r == .postCall .one 5 .left .help
    after (.replyWindowEnd .one bits) (polling ⟨5, 2, false⟩ presentPost) (fun t =>
      calls t && (t.node .one 5).upToggle == some false) = true
    ∧ after (.replyWindowEnd .one bits) (polling ⟨5, 2, false⟩ { presentPost with upToggle := some false }) (fun t => !calls t) = true := by
  decide +kernel

/-- SHOW_STOP releases the deferred orders; the notices stay owed while the line is OFF (R27, R182, R188). -/
theorem test_showStop_releases :
    after (.showStop req 1) (asking 0x17#8 ((serving [{ order 1 .deferred with mode := .intermission }]).setScreen .one
        { Screen.reset with state := .running })) (fun t =>
      t.orders.live.map (fun o => (o.state, o.owed, o.acceptance)) == [(.received, some .released, some 60000)]) = true := by
  decide +kernel

/-- A GOOD reply under the message's toggle takes it from the queue; under the other it counts as a poll waited (R118). -/
theorem test_replies_to_an_outstanding_message :
    let s := queueing [message (.outstanding 1 0)] (polling ⟨5, 2, false⟩ presentPost)
    after (.replyWindowEnd .one (replyBits [5#8, 0x01#8])) s (fun t =>
      (t.posts.get .one).queue == [] && (t.node .one 5).downToggle) = true
    ∧ after (.replyWindowEnd .one (replyBits [5#8, 0x05#8])) s (fun t =>
      (t.posts.get .one).queue == [message (.outstanding 1 1)] && !(t.node .one 5).downToggle) = true := by decide +kernel

/-- A vehicle that leaves both loops at one sample is an entry (R135). -/
theorem test_both_loops_fall :
    after (.loopLevelChange .one [(false, false)]) (laned fun l => { l with
        decoder := .inAB, loopA := ⟨true, 3, .running 9⟩, loopB := ⟨true, 3, .running 9⟩ }) (fun t =>
      (t.lane .one).decoder == .clear && (t.lane .one).counts.entries == 1#32) = true := by decide +kernel

/-- The vehicle that leaves loop B makes PASS and is inbound at its admission's field; with 64 inbound the oldest car gives way to it
(R143, R147, R155, R156). -/
theorem test_entry_is_handed_to_its_field :
    let pass : Report := .pass .one .entry ⟨false, false, false, false, false⟩ (some ⟨65, .two, .car, 2⟩) 1
    let inbound (t : State) : List Inbound := (t.fields.get .two).inbound
    after (.loopLevelChange .one [(false, false)]) (arriving 0) (fun t =>
      t.link.outgoing == [pass] && inbound t == [⟨65, 0, 900000⟩]) = true
    ∧ after (.loopLevelChange .one [(false, false)]) (arriving 64) (fun t =>
      t.link.outgoing == [pass, .inboundExpired .two 1 .overflow 0 64] && (inbound t).length == 64
        && (inbound t).map (·.id) == (List.range 64).map (· + 2)) = true := by decide +kernel

/-- A priority-1 record preempts the records in its way, and the walk grants one further back (R68, R69, R78). -/
theorem test_preemption_is_reported :
    let both : Ann := { ann 9 .chime 1 2 .chime with targets := ⟨true, true, false, false⟩ }
    let second : Ann := { ann 8 .chime 1 3 .queued with targets := ⟨false, true, false, false⟩ }
    let s := (announcing both).setAnnounce { (announcing both).announce with queue := [second] }
    let ids (t : State) : List (Nat × AnnMark) := t.link.outgoing.filterMap fun r =>
      match r with
      | .announceState id _ _ _ _ _ mark => some (id, mark)
      | _ => none
    after (.announce req .chime 1 [1] 1 30) (asking 0x30#8 s) (fun t =>
      (t.announce.active.map (·.id)) == [1, 8] && t.announce.queue == []
        && ids t == [(1, .phase .queued), (9, .ended .preempted), (1, .phase .ducking), (8, .phase .ducking)]) = true := by decide +kernel

/-- A frame that fails its check and holds two whole frames: both become requests, and one discard is counted (R195). -/
theorem test_failed_check_is_hunted_through :
    let held : List Byte := 16#8 :: 0#8 :: (linkFrame 1#8 7#8 [] ++ linkFrame 6#8 8#8 [] ++ [0xC5#8, 2#8, 0#8])
    after (.linkByteReceived 1#8) (linked fun l => { l with rx := ⟨.frame, held, some 50⟩ }) (fun t =>
      t.link.requests.map (fun q => (q.kind, q.tag)) == [(1#8, 7#8), (6#8, 8#8)] && t.link.discarded == 1#32
        && t.link.rx.state == .frame && t.link.rx.kept == [2#8, 0#8, 1#8]) = true := by decide +kernel

/-- The cue numbers with their fired marks, and the show state. -/
def fired (s : State) : List (Nat × Bool) × ShowState :=
  ((s.screens.get .one).cues.map fun c => (c.number, c.fired), (s.screens.get .one).state)

/-- A fire pass ends at the hold point that holds, at a frame and at a hold's end; past one that does not, at END (R14, R17, R25). -/
theorem test_fire_passes :
    after (.frameCounted .one [true]) (manyDue .running true 4) (fun t =>
      fired t == ([(1, true), (2, true), (3, true), (4, false), (5, false), (6, false)], .holding)) = true
    ∧ after (.showGo req 1) (asking 0x16#8 (manyDue .armed false 5)) (fun t =>
      fired t == ([(1, true), (2, true), (3, true), (4, true), (5, false), (6, false)], .ended)) = true
    ∧ after (.holdRelease req 1) (asking 0x18#8 (manyDue .holding true 5)) (fun t =>
      fired t == ([(1, true), (2, true), (3, true), (4, false), (5, false), (6, false)], .holding)) = true := by decide +kernel

/-- Idle flags up to the last moment of the wait, and seven ones after them, are no data: there is no reply. Other bits after the
first flag begin one, and without a flag after them it is aborted (R87). -/
theorem test_bits_of_a_flag_are_no_data :
    let idle := flag ++ (List.replicate 23 sharedFlag).flatten
    (windowOutcome 5 (idle ++ List.replicate 7 true)).1 = .noReply ∧ (windowOutcome 5 (flag ++ [false, true])).1 = .noReply
      ∧ (windowOutcome 5 (flag ++ [true, false])).1 = .abort := by decide +kernel

/-- The step is launched 20 ms into MEASURING: READ then tells 20 ms left, a second launch is none, and the survey ends at 40 ms. A
survey whose launch no command has told of ends there too (R129, R132, R134). -/
theorem test_survey_launches_at_20_ms :
    let begun (holds : State → Bool) : Bool := after (.lineSurveyStart req 1) (asking 0x3B#8 ready) holds
    let launch : Instr := .surveyStepLaunch .one (List.replicate 2048 65536 ++ [0])
    begun (fun t => (t.surveys.get .one).launch == some 20 && after launch t fun u =>
      u.clock == 20 && u.left (u.surveys.get .one).timer == 20 && after (.surveyStepLaunch .one [0]) u (fun v => v == u)
        && after (.surveyComplete .one) u fun v => v.clock == 40 && (v.surveys.get .one).last.map (·.records) == some []) = true
    ∧ begun (fun t => after (.surveyComplete .one) t fun v =>
      v.clock == 40 && (v.surveys.get .one).state == .idle && (v.lines.get .one).state == .off) = true := by decide +kernel

/-- LINE_STOP tells of the aborted survey, of each message in queue order, and of the line; LFAULT of an aged message and of the line
(R93, R94, R98, R121, R133). -/
theorem test_reports_of_a_line :
    let failed (number : Nat) (reason : DropReason) : Report := .downFailed .one 5 number .chime .host reason
    after (.lineStop req 1) (asking 0x3A#8 ((aging fun l => { l with state := .running }).setSurvey .one
        { SurveyUnit.reset with state := .waiting, velocity := 66, threshold := 16 })) (fun t =>
      t.link.outgoing.filter Report.ofLine
        == [.surveyDone .one .aborted .request 66 16 [], failed 3 .lineStopped, failed 4 .lineStopped,
          .lineState .one .running .off .request]) = true
    ∧ after (.lfaultLevelChange .one [true]) (aging fun l => { l with state := .running, lfault := ⟨false, 1⟩ }) (fun t =>
      t.link.outgoing.filter Report.ofLine == [failed 3 .notPresent, .lineState .one .running .fault .lfault]) = true := by
  decide +kernel

/-- POST_STATE of a post that enters PRESENT, whose flags change, and that is disabled: its values after each (R109, R111, R123). -/
theorem test_reports_of_a_post :
    let told (r : Report) (t : State) : Bool := t.link.outgoing.filter Report.ofLine == [r]
    after (.replyWindowEnd .one (replyBits [5#8, 0x21#8])) (polling ⟨5, 2, true⟩ Node.reset)
      (told (.postState .one 5 .absent .present .reply (.post true false .occupied .empty))) = true
    ∧ after (.replyWindowEnd .one (replyBits [5#8, 0x43#8])) (polling ⟨5, 2, false⟩ presentPost)
      (told (.postState .one 5 .present .present .status (.post false true .occupied .occupied))) = true
    ∧ after (.postSet req 1 5 true true true 0xFFFF) (asking 0x3D#8 (ready.setNode .one 5 presentPost))
      (told (.postState .one 5 .present .disabled .request (.post false false .unknown .unknown))) = true := by decide +kernel

/-- A hold that its last inbound car's seat timer ends: HOLD_ENDED with SEATED, then the cues that were due (R12, R24, R25). -/
theorem test_hold_ends_seated :
    after (.seatTimeout .one 0) (manyDue .holding true 5) (fun t =>
      t.link.outgoing.filter Report.ofShow
        == [.holdEnded .one .seated 4 5, .cueFired .one 2 5 (.mark 1) none, .cueFired .one 3 5 .holdPoint (some .passed),
          .cueFired .one 4 5 .finish none, .showState .one .running .ended 5 .endCue]) = true
    ∧ after (.showStop req 1) (asking 0x17#8 (manyDue .holding true 5)) (fun t =>
      t.link.outgoing.filter Report.ofShow
        == [.holdEnded .one .stopped 4 5, .showState .one .holding .stopped 5 .request]) = true := by decide +kernel

end Sys2Proof.Tests
end

section
/-! The location of reflections (R131): which post the fold over the copied positions finds, and where those positions come
from. -/

namespace Sys2Proof.Machine

/-! ### The distance -/

/-- The distance grows with the tap and with the velocity factor. -/
theorem distanceOf_mono {tap tap' velocity velocity' : Nat} (ht : tap ≤ tap') (hv : velocity ≤ velocity') :
    distanceOf tap velocity ≤ distanceOf tap' velocity' := by
  have hproduct : tap * velocity ≤ tap' * velocity' := Nat.mul_le_mul ht hv
  unfold distanceOf
  omega

/-! ### The nearest post -/

/-- R131's order of two posts, each an address and a position: the higher position first, and the lower address on equal ones. -/
def NearerPost (p q : Nat × Nat) : Prop := q.2 < p.2 ∨ (q.2 = p.2 ∧ p.1 ≤ q.1)

theorem NearerPost.refl (p : Nat × Nat) : NearerPost p p := .inr ⟨rfl, Nat.le_refl _⟩

theorem NearerPost.trans {p q r : Nat × Nat} (hpq : NearerPost p q) (hqr : NearerPost q r) : NearerPost p r := by
  unfold NearerPost at *
  omega

/-- `betterPost` keeps the nearer of two posts. -/
theorem betterPost_cases (b p : Nat × Nat) :
    (betterPost (some b) p = some p ∧ NearerPost p b) ∨ (betterPost (some b) p = some b ∧ NearerPost b p) := by
  simp only [betterPost, NearerPost]
  split
  · left; exact ⟨rfl, by omega⟩
  · right; exact ⟨rfl, by omega⟩

/-- From a post on, the fold ends at a post of those it has seen that is the nearest of them all. -/
theorem foldl_betterPost_some (ps : List (Nat × Nat)) (b : Nat × Nat) :
    ∃ c ∈ b :: ps, ps.foldl betterPost (some b) = some c ∧ ∀ q ∈ b :: ps, NearerPost c q := by
  induction ps generalizing b with
  | nil => exact ⟨b, by simp, rfl, by simp [NearerPost.refl]⟩
  | cons p ps ih =>
    obtain ⟨hkept, hpb⟩ | ⟨hkept, hbp⟩ := betterPost_cases b p
    · obtain ⟨c, hc, hfold, hnearest⟩ := ih p
      have hcb : NearerPost c b := (hnearest p List.mem_cons_self).trans hpb
      exact ⟨c, List.mem_cons_of_mem b hc, by rw [List.foldl_cons, hkept, hfold], List.forall_mem_cons.mpr ⟨hcb, hnearest⟩⟩
    · obtain ⟨c, hc, hfold, hnearest⟩ := ih b
      obtain ⟨hcb, hrest⟩ := List.forall_mem_cons.mp hnearest
      exact ⟨c, List.cons_subset_cons b (List.subset_cons_self p ps) hc, by rw [List.foldl_cons, hkept, hfold],
        by simpa only [List.forall_mem_cons] using ⟨hcb, hcb.trans hbp, hrest⟩⟩

/-- The fold over all the posts of a list: none for no posts, and else the nearest of them. -/
theorem foldl_betterPost_cases (ps : List (Nat × Nat)) :
    (ps = [] ∧ ps.foldl betterPost none = none) ∨
    ∃ c ∈ ps, ps.foldl betterPost none = some c ∧ ∀ q ∈ ps, NearerPost c q := by
  cases ps with
  | nil => exact .inl ⟨rfl, rfl⟩
  | cons p ps => exact .inr (foldl_betterPost_some ps p)

/-- Either every copied position is beyond the distance and there is no nearest post, or it is the nearest of those that are
not. -/
theorem nearestPost_cases (positions : List (Nat × Nat)) (d : Nat) :
    (nearestPost positions d = none ∧ ∀ p ∈ positions, d < p.2) ∨
    ∃ c ∈ positions, nearestPost positions d = some c.1 ∧ c.2 ≤ d ∧ ∀ q ∈ positions, q.2 ≤ d → NearerPost c q := by
  obtain ⟨hnil, hfold⟩ | ⟨c, hc, hfold, hnearest⟩ := foldl_betterPost_cases (positions.filter fun p => decide (p.2 ≤ d))
  · left
    exact ⟨by simp [nearestPost, hfold], by simpa [List.filter_eq_nil_iff] using hnil⟩
  · right
    obtain ⟨hmem, hle⟩ : c ∈ positions ∧ c.2 ≤ d := by simpa using hc
    exact ⟨c, hmem, by simp [nearestPost, hfold], hle, fun q hq hqd => hnearest q (by simp [hq, hqd])⟩

theorem nearestPost_eq_none_iff (positions : List (Nat × Nat)) (d : Nat) :
    nearestPost positions d = none ↔ ∀ p ∈ positions, d < p.2 := by
  obtain ⟨hnone, hbeyond⟩ | ⟨c, hc, hsome, hle, -⟩ := nearestPost_cases positions d
  · exact iff_of_true hnone hbeyond
  · exact iff_of_false (by simp [hsome]) fun hbeyond => Nat.not_lt.mpr hle (hbeyond c hc)

theorem nearestPost_eq_some {positions : List (Nat × Nat)} {d a : Nat} (h : nearestPost positions d = some a) :
    ∃ p, (a, p) ∈ positions ∧ p ≤ d ∧ ∀ q ∈ positions, q.2 ≤ d → NearerPost (a, p) q := by
  obtain ⟨hnone, -⟩ | ⟨⟨a', p⟩, hc, hsome, hle, hnearest⟩ := nearestPost_cases positions d
  · cases hnone.symm.trans h
  · cases hsome.symm.trans h
    exact ⟨p, hc, hle, hnearest⟩

/-! ### The positions a survey copies -/

/-- R128: the list of positions holds each post's that has one, and not the exciter's. -/
theorem PostTable.mem_positions (t : PostTable) (p : Nat × Nat) :
    p ∈ t.positions ↔ ∃ a : Fin 97, a.val = p.1 ∧ a.val ≠ 0 ∧ (t.node a).position = some p.2 := by
  obtain ⟨k, d⟩ := p
  simp only [PostTable.positions, addresses, List.mem_filterMap, List.mem_finRange, true_and]
  refine exists_congr fun a => ?_
  by_cases ha : a.val = 0
  · simp only [ha, if_true, reduceCtorEq, ne_eq, not_true_eq_false, false_and, and_false]
  · simp only [ha, if_false, Option.map_eq_some_iff, Prod.mk.injEq, ne_eq, not_false_eq_true, true_and]
    constructor
    · rintro ⟨_, hposition, haddress, rfl⟩
      exact ⟨haddress, hposition⟩
    · rintro ⟨haddress, hposition⟩
      exact ⟨d, hposition, haddress, rfl⟩

/-- Settles O43: the distance by its monotonicity up to the largest tap and velocity factor, the nearest post by the fold's
result, and the positions by what the post table lists. -/
theorem reflectionsAreLocated : Obligations.ReflectionsAreLocated := by
  have hlargest : distanceOf 2047 99 = 30378 := by decide
  refine ⟨fun _ _ => rfl, hlargest, by decide, ?largest, ?record, ?positions⟩
  case largest =>
    intro tap velocity ht hv
    exact Nat.le_trans (distanceOf_mono ht hv) (Nat.le_of_eq hlargest)
  case record =>
    intro u r
    exact ⟨rfl, nearestPost_eq_none_iff _ _, fun a => nearestPost_eq_some⟩
  case positions =>
    intro s n p hp
    obtain ⟨a, haddress, hpost, hposition⟩ := ((s.posts.get n).mem_positions p).mp hp
    exact ⟨haddress ▸ hpost, a, haddress, hposition⟩

end Sys2Proof.Machine
end

section
/-! FIELD_FULL (R158): what a decision does to the state, FIELD_SET's decision, and what an ADMIT reads of the level. -/

namespace Sys2Proof.Machine

/-! ### The decision -/

/-- R158's table, row by row: a low FIELD_FULL looks at 0 available, a high one at the reopen margin. -/
theorem fieldFullAfter_eq (before : Bool) (available margin : Nat) :
    fieldFullAfter before available margin = (match before with
      | false => decide (available = 0)
      | true => decide (available < margin)) := by
  cases before <;> rfl

/-- R154: no more bays are available than the effective capacity. -/
theorem Occupancy.free_le_effective (f : Occupancy) : f.free ≤ f.effective := by
  unfold Occupancy.free
  omega

/-- A decision works out available, and leaves the rest of its field. -/
theorem decideFull_field (n : Nr) (s : State) :
    (decideFull n s).fields.get n = { s.fields.get n with available := (s.fields.get n).free } := by
  simp [decideFull]

theorem decideFull_available (n : Nr) (s : State) : ((decideFull n s).fields.get n).available = (s.fields.get n).free := by
  rw [decideFull_field]

@[simp] theorem decideFull_inbound (n : Nr) (s : State) :
    ((decideFull n s).fields.get n).inbound = (s.fields.get n).inbound := by
  rw [decideFull_field]

@[simp] theorem decideFull_gate (n : Nr) (s : State) : (decideFull n s).gate = s.gate := rfl

theorem decideFull_level (n : Nr) (s : State) :
    State.level (decideFull n s) (.fieldFull n) =
      fieldFullAfter (State.level s (.fieldFull n)) (s.fields.get n).free (s.fields.get n).settings.reopenMargin :=
  setCond_level_same _ _ _

/-- Where the field is replaced before the decision, the level before is still the one that counts. -/
theorem decideFull_setField_level (n : Nr) (f : Occupancy) (s : State) :
    State.level (decideFull n (s.setField n f)) (.fieldFull n) =
      fieldFullAfter (State.level s (.fieldFull n)) f.free f.settings.reopenMargin := by
  rw [decideFull_level]
  simp [State.level]

/-- A decision is the new available and then the level decided, given to the condition. -/
theorem decideFull_eq (n : Nr) (s : State) :
    decideFull n s = (s.setField n { s.fields.get n with available := (s.fields.get n).free }).setCond (.fieldFull n)
      (State.level (decideFull n s) (.fieldFull n)) := by
  rw [decideFull_level]
  rfl

/-- R158: a full field whose effective capacity is below its margin stays full. -/
theorem decideFull_stays_full {n : Nr} {s : State} (hfull : State.level s (.fieldFull n) = true)
    (hsmall : (s.fields.get n).effective < (s.fields.get n).settings.reopenMargin) :
    State.level (decideFull n s) (.fieldFull n) = true := by
  rw [decideFull_level, hfull, fieldFullAfter_eq]
  exact decide_eq_true (Nat.lt_of_le_of_lt (Occupancy.free_le_effective _) hsmall)

/-! ### FIELD_SET -/

/-- R160: valid settings replace those of the field, and FIELD_FULL is decided on them. -/
theorem fieldSet_valid (n : Nr) {v : FieldSettings} (s : State) (hv : FieldSettings.valid v = true) :
    fieldSet n.toNat v s =
      let t := decideFull n (s.setField n { s.fields.get n with settings := v })
      .ok (t, fieldReply t n) := by
  simp [fieldSet, numbered, hv]

/-! ### ADMIT -/

/-- R146: without the override, an ADMIT for a full field that passes the checks before is refused. -/
theorem admitRequest_fieldFull {s : State} {n k : Nr} {cls : VehicleClass} {people : Nat} (hpeople : within 1 15 people = true)
    (hdirection : (s.lane n).settings.direction ≠ .exit) (hroom : (s.lane n).queue.length < admissionRoom)
    (hfull : State.level s (.fieldFull k) = true) : admitRequest n.toNat k.toNat cls people false s = .error .fieldFull := by
  simp [admitRequest, numbered, hpeople, hdirection, Nat.not_le.mpr hroom, hfull]

/-- R145, R146: an ADMIT for a field that is not full is queued under an id, and tells its place. -/
theorem admitRequest_ok {s : State} {n k : Nr} {cls : VehicleClass} {people : Nat} (hpeople : within 1 15 people = true)
    (hdirection : (s.lane n).settings.direction ≠ .exit) (hroom : (s.lane n).queue.length < admissionRoom)
    (hopen : State.level s (.fieldFull k) = false) :
    ∃ u id, admitRequest n.toNat k.toNat cls people false s = .ok (u, .admitted id ((s.lane n).queue.length + 1)) := by
  simp [admitRequest, numbered, hpeople, hdirection, Nat.not_le.mpr hroom, hopen]

/-- Settles O48: the decision by R158's table, FIELD_SET as a decision on the new settings, ADMIT by what its check reads. -/
theorem fieldFullIsDecidedByItsTable : Obligations.FieldFullIsDecidedByItsTable := by
  refine ⟨?decision, ?fieldSet, ?admission⟩
  case decision =>
    intro s n
    exact ⟨decideFull_available n s, (decideFull_level n s).trans (fieldFullAfter_eq ..), decideFull_eq n s,
      decideFull_stays_full, decideFull_gate n s, decideFull_inbound n s⟩
  case fieldSet =>
    intro s n r v hturn hform hv
    have hact := fieldSet_valid n s hv
    obtain ⟨_, hexec, -, -, rfl⟩ := accepted (c := .fieldSet r n.toNat v) hturn hform rfl rfl hact
      (fieldSet_only n.toNat v hact) (by simp [Part.of])
    refine ⟨_, hexec, ?_, ?_, ?_⟩
    · rw [State.level_kick, State.level_answer]
      exact (decideFull_setField_level ..).trans (fieldFullAfter_eq ..)
    · simp
    · simp
  case admission =>
    intro s n k r cls people hturn hform hlow hhigh hdirection hroom
    have hpeople : within 1 15 people = true := by simp [within, hlow, hhigh]
    constructor
    · intro hfull
      exact refused hturn hform rfl rfl (admitRequest_fieldFull hpeople hdirection hroom hfull)
    · intro hopen
      obtain ⟨u, id, hact⟩ := admitRequest_ok hpeople hdirection hroom hopen (cls := cls)
      obtain ⟨t, hexec, hreplied, -, -⟩ := accepted (c := .admitCar r n.toNat k.toNat cls people false) hturn hform rfl rfl hact
        (admitRequest_only _ _ _ _ _ hact) (by simp [Part.of])
      exact ⟨t, id, hexec, hreplied⟩

end Sys2Proof.Machine
end
